-- ==== Sys2Proof/Word.lean ====
section
/-! DEFINITION. The index types and words every other file uses: channels, clients, links' bytes and
event words.

Channels are numbered 0 to 7 and clients 0 to 3 (00_scope.md, sections 3 and 5.4). Quantities that
the manual counts are `Nat` or `Int` (R1: "All quantities held or computed by the device are
integers"); only what travels as bits on a link, on a pin or in a 16-bit counter is a bit vector. -/

namespace Sys2Proof

/-- A channel number, 0 to 7. -/
abbrev Chan := Fin 8

/-- A client (and client link) number, 0 to 3. -/
abbrev Client := Fin 4

/-- One byte of a frame. -/
abbrev Byte := BitVec 8

/-- A 16-bit word: an argument, a reply's data, one word of an event record. -/
abbrev Word := BitVec 16

/-- The accepted or sampled levels of Hall inputs A (bit 1) and B (bit 0) of one channel. -/
abbrev Pair := BitVec 2

/-- The eight channels in channel order. -/
def allChans : List Chan := [0, 1, 2, 3, 4, 5, 6, 7]

/-- The four clients in order. -/
def allClients : List Client := [0, 1, 2, 3]

end Sys2Proof
end

