-- ==== Sys2Proof/Syntax.lean ====
section
/-! DEFINITION. The commands of the block: one constructor per row of spec/opcode_table.json.

The first group are events inside the device or at its pins; a request is a valid frame of client
`x` with its four fields (R169, R175): the request code is the constructor, `p` is the channel field
(bits 7 to 4 of the target byte), `m` the modifier (bits 3 to 0) and `a` the argument.

LEARN is one request code (30h) whose modifier tells the table's three rows apart (R175): modifier 1
is LEARN REFERENCE and modifier 2 FORGET, so those rows carry no modifier. LEARN OPEN END carries
it: 0 is the row's own value, and a LEARN frame whose modifier chapter 10 does not define (3 to 15)
is this command too, which R160's check 1 answers BAD_ARGUMENT (log entry 27). -/

namespace Sys2Proof

/-- The commands, in the order of the table. -/
inductive Instr where
  /-- RESET_N (R16): power-on or RESET_N; `stmode` is the level of STMODE at the release. -/
  | resetN (stmode : Bool)
  /-- START_UP_LOAD (R186): the start-up load completes. -/
  | startUpLoad
  /-- HALL_ACCEPTANCE (R3): the fourth equal sample of `pair` on channel `c`. -/
  | hallAcceptance (c : Chan) (pair : Pair)
  /-- SUPPLY_SAMPLE (R18): a conversion completes with this reading, in units of 10 mV. -/
  | supplySample (reading : Nat)
  /-- LDE_TAKE (R30). -/
  | ldeTake
  /-- LDE_COMPLETION (R31). -/
  | ldeCompletion
  /-- STALL (R86): the stall timer of channel `c` expires. -/
  | stall (c : Chan)
  /-- BRAKE_EXPIRY (R84): the brake timer of channel `c` expires. -/
  | brakeExpiry (c : Chan)
  /-- SPACING_TIMER_RUN_OUT (R111). -/
  | spacingTimerRunOut
  /-- REFRESH_DEADLINE_EXPIRY (R122) on channel `c`. -/
  | refreshDeadlineExpiry (c : Chan)
  /-- WAIT_DEADLINE_EXPIRY (R153) on channel `c`. -/
  | waitDeadlineExpiry (c : Chan)
  /-- OVERRIDE_WINDOW_EXPIRY (R130) on channel `c`. -/
  | overrideWindowExpiry (c : Chan)
  /-- LAPSE_TIMER_EXPIRY (R134) of client `x`. -/
  | lapseTimerExpiry (x : Client)
  /-- STORE_COMPLETION (R188); `valid` is what the read-back finds. -/
  | storeCompletion (valid : Bool)
  /-- CAL_ERASE_COMPLETION (R191). -/
  | calEraseCompletion
  /-- SECTOR_SWITCH (R184). -/
  | sectorSwitch
  /-- STSEL_CHANGE (R184): STSEL takes this level. -/
  | stselChange (level : Bool)
  /-- FRAME_ERROR (R171): client `x`'s frame has a wrong length or a bad sum. -/
  | frameError (x : Client)
  /-- UNDEFINED_REQUEST_CODE (R175): a valid frame of `x` with an unassigned request code. -/
  | undefinedRequestCode (x : Client) (code : Byte)
  | nop (x : Client) (p m : BitVec 4) (a : Word)
  | move (x : Client) (p m : BitVec 4) (a : Word)
  | halt (x : Client) (p m : BitVec 4) (a : Word)
  | stopClaim (x : Client) (p m : BitVec 4) (a : Word)
  | stopRelease (x : Client) (p m : BitVec 4) (a : Word)
  | lockoutSet (x : Client) (p m : BitVec 4) (a : Word)
  | lockoutClear (x : Client) (p m : BitVec 4) (a : Word)
  | ackReversal (x : Client) (p m : BitVec 4) (a : Word)
  | panelRestart (x : Client) (p m : BitVec 4) (a : Word)
  | groupMove (x : Client) (p m : BitVec 4) (a : Word)
  | groupCancel (x : Client) (p m : BitVec 4) (a : Word)
  | readGroup (x : Client) (p m : BitVec 4) (a : Word)
  | readPanel (x : Client) (p m : BitVec 4) (a : Word)
  | readEvent (x : Client) (p m : BitVec 4) (a : Word)
  | popEvent (x : Client) (p m : BitVec 4) (a : Word)
  | setEventMask (x : Client) (p m : BitVec 4) (a : Word)
  | identify (x : Client) (p m : BitVec 4) (a : Word)
  | learnOpenEnd (x : Client) (p m : BitVec 4) (a : Word)
  | learnReference (x : Client) (p : BitVec 4) (a : Word)
  | forget (x : Client) (p : BitVec 4) (a : Word)
  | setParameter (x : Client) (p m : BitVec 4) (a : Word)
  | readParameter (x : Client) (p m : BitVec 4) (a : Word)
  | readProfile (x : Client) (p m : BitVec 4) (a : Word)
  | zoneBegin (x : Client) (p m : BitVec 4) (a : Word)
  | zonePutStart (x : Client) (p m : BitVec 4) (a : Word)
  | zonePutField (x : Client) (p m : BitVec 4) (a : Word)
  | zoneCommit (x : Client) (p m : BitVec 4) (a : Word)
  | zoneAbandon (x : Client) (p m : BitVec 4) (a : Word)
  | store (x : Client) (p m : BitVec 4) (a : Word)
  | calLock (x : Client) (p m : BitVec 4) (a : Word)
  | calErase (x : Client) (p m : BitVec 4) (a : Word)
  deriving DecidableEq, Repr

end Sys2Proof
end

