-- ==== Sys2Proof/Decode.lean ====
section
/-! DEFINITION. From bits to commands.

spec/opcode_table.json gives no row any bits, so `decodeTableWord` spells no command. What the
manual does give is the client link's frame (R169, R171, R175): `decodeFrame` reads the five bytes of
a frame of the right length, and `encodeFrame` writes the frame that spells a request. -/

namespace Sys2Proof

/-- The command that a word spells by the table's bits: the table gives bits to no row. -/
def decodeTableWord (_nbits _w : Nat) : Option Instr := none

/-! ## Frames (R169): byte 1 is bits 39 to 32, "most significant bit first". -/

/-- Byte `n` (1 to 5) of a frame. -/
def frameByte (n : Nat) (f : BitVec 40) : Byte := f.extractLsb' (8 * (5 - n)) 8

/-- A frame from its five bytes. -/
def frameOfBytes (b1 b2 b3 b4 b5 : Byte) : BitVec 40 := b1 ++ b2 ++ b3 ++ b4 ++ b5

/-- R171: the check byte "makes the five bytes of the frame sum to 0 modulo 256". -/
def checkByte (b1 b2 b3 b4 : Byte) : Byte := 0 - (b1 + b2 + b3 + b4)

/-- A frame of four bytes closed by its check byte. -/
def sealFrame (b1 b2 b3 b4 : Byte) : BitVec 40 := frameOfBytes b1 b2 b3 b4 (checkByte b1 b2 b3 b4)

/-- R171: the five bytes sum to 0 modulo 256. -/
def frameSumOk (f : BitVec 40) : Bool :=
  frameByte 1 f + frameByte 2 f + frameByte 3 f + frameByte 4 f + frameByte 5 f == 0

/-- R175: the request with code `code` and the frame's other fields; an unassigned code is
UNDEFINED_REQUEST_CODE. -/
def requestOf (x : Client) (code : Byte) (p m : BitVec 4) (a : Word) : Instr :=
  match code.toNat with
  | 0x00 => .nop x p m a
  | 0x01 => .move x p m a
  | 0x02 => .halt x p m a
  | 0x03 => .stopClaim x p m a
  | 0x04 => .stopRelease x p m a
  | 0x05 => .lockoutSet x p m a
  | 0x06 => .lockoutClear x p m a
  | 0x07 => .ackReversal x p m a
  | 0x08 => .panelRestart x p m a
  | 0x10 => .groupMove x p m a
  | 0x11 => .groupCancel x p m a
  | 0x12 => .readGroup x p m a
  | 0x20 => .readPanel x p m a
  | 0x21 => .readEvent x p m a
  | 0x22 => .popEvent x p m a
  | 0x23 => .setEventMask x p m a
  | 0x24 => .identify x p m a
  | 0x30 => if m = 1 then .learnReference x p a else if m = 2 then .forget x p a else .learnOpenEnd x p m a
  | 0x31 => .setParameter x p m a
  | 0x32 => .readParameter x p m a
  | 0x33 => .readProfile x p m a
  | 0x38 => .zoneBegin x p m a
  | 0x39 => .zonePutStart x p m a
  | 0x3A => .zonePutField x p m a
  | 0x3B => .zoneCommit x p m a
  | 0x3C => .zoneAbandon x p m a
  | 0x40 => .store x p m a
  | 0x41 => .calLock x p m a
  | 0x42 => .calErase x p m a
  | _ => .undefinedRequestCode x code

/-- R171, R175: the command that a completed frame of 40 clocks on link `x` is. -/
def decodeFrame (x : Client) (f : BitVec 40) : Instr :=
  if frameSumOk f then
    requestOf x (frameByte 1 f) (f.extractLsb' 28 4) (f.extractLsb' 24 4) (f.extractLsb' 8 16)
  else .frameError x

/-- R175: the client, request code, channel, modifier and argument of a request; none for a command
that is no request. -/
def requestFields : Instr → Option (Client × Byte × BitVec 4 × BitVec 4 × Word)
  | .nop x p m a => some (x, 0x00, p, m, a)
  | .move x p m a => some (x, 0x01, p, m, a)
  | .halt x p m a => some (x, 0x02, p, m, a)
  | .stopClaim x p m a => some (x, 0x03, p, m, a)
  | .stopRelease x p m a => some (x, 0x04, p, m, a)
  | .lockoutSet x p m a => some (x, 0x05, p, m, a)
  | .lockoutClear x p m a => some (x, 0x06, p, m, a)
  | .ackReversal x p m a => some (x, 0x07, p, m, a)
  | .panelRestart x p m a => some (x, 0x08, p, m, a)
  | .groupMove x p m a => some (x, 0x10, p, m, a)
  | .groupCancel x p m a => some (x, 0x11, p, m, a)
  | .readGroup x p m a => some (x, 0x12, p, m, a)
  | .readPanel x p m a => some (x, 0x20, p, m, a)
  | .readEvent x p m a => some (x, 0x21, p, m, a)
  | .popEvent x p m a => some (x, 0x22, p, m, a)
  | .setEventMask x p m a => some (x, 0x23, p, m, a)
  | .identify x p m a => some (x, 0x24, p, m, a)
  | .learnOpenEnd x p m a => some (x, 0x30, p, m, a)
  | .learnReference x p a => some (x, 0x30, p, 1, a)
  | .forget x p a => some (x, 0x30, p, 2, a)
  | .setParameter x p m a => some (x, 0x31, p, m, a)
  | .readParameter x p m a => some (x, 0x32, p, m, a)
  | .readProfile x p m a => some (x, 0x33, p, m, a)
  | .zoneBegin x p m a => some (x, 0x38, p, m, a)
  | .zonePutStart x p m a => some (x, 0x39, p, m, a)
  | .zonePutField x p m a => some (x, 0x3A, p, m, a)
  | .zoneCommit x p m a => some (x, 0x3B, p, m, a)
  | .zoneAbandon x p m a => some (x, 0x3C, p, m, a)
  | .store x p m a => some (x, 0x40, p, m, a)
  | .calLock x p m a => some (x, 0x41, p, m, a)
  | .calErase x p m a => some (x, 0x42, p, m, a)
  | .undefinedRequestCode x code => some (x, code, 0, 0, 0)
  | .frameError _ => none
  | .resetN _ => none
  | .startUpLoad => none
  | .hallAcceptance _ _ => none
  | .supplySample _ => none
  | .ldeTake => none
  | .ldeCompletion => none
  | .stall _ => none
  | .brakeExpiry _ => none
  | .spacingTimerRunOut => none
  | .refreshDeadlineExpiry _ => none
  | .waitDeadlineExpiry _ => none
  | .overrideWindowExpiry _ => none
  | .lapseTimerExpiry _ => none
  | .storeCompletion _ => none
  | .calEraseCompletion => none
  | .sectorSwitch => none
  | .stselChange _ => none

/-- The request frame that spells a request on its client's link (R169, R171). -/
def encodeFrame (i : Instr) : Option (Client × BitVec 40) :=
  match requestFields i with
  | some (x, code, p, m, a) =>
    some (x, sealFrame code (p ++ m) (a.extractLsb' 8 8) (a.extractLsb' 0 8))
  | none => none

end Sys2Proof
end

