-- ==== Sys2Proof/Config.lean ====
section
/-! DEFINITION. What the manual leaves to the part or to the moment: constants with no body.

Nothing in Lean can evaluate one of these or prove a value of it, so a statement that holds of the
model holds whatever they are. Each has a row in notes/assumptions. -/

namespace Sys2Proof.Config

/-- R185: the factory unique number, read-only cells outside the image (log entry 3). -/
opaque uniqueNumber : BitVec 64

/-- R186: "The load completes no later than 12 ms after the release of reset." Whether it has
completed by the given microsecond is open (log entry 4). -/
opaque loadDoneBy : Nat → Bool

/-- R30: "The completion comes at most 20 µs after the take." Whether it comes at the given
microsecond after the take is open; the second argument is a fresh number (log entry 4). -/
opaque ldeDoneBy : Nat → Nat → Bool

/-- Where several events fall on one microsecond "either may be taken first": the fresh number's
pick among them (log entry 5). -/
opaque tieBreak : Nat → Nat

/-- R180: "Where two blocks post at the same moment, either may be taken first." True: the first
named of the two blocks posts first (log entry 6). -/
opaque postsFirst : Nat → Bool

/-- R188: whether the read-back at the completion of a write finds the stored record valid, where
no command says so (log entry 7). -/
opaque readBackValid : Nat → Bool

/-- R189, R191: how many of the nine records an erase has blanked after the given number of
microseconds; the second argument is a fresh number (log entry 8). -/
opaque erasedAfter : Nat → Nat → Nat

/-- R189: whether the record that a cut-off erase was blanking is left blank (true) or corrupt
(log entry 8). -/
opaque cutRecordBlank : Nat → Bool

end Sys2Proof.Config
end

