-- ==== Sys2Proof/Machine/Types.lean ====
section
/-! DEFINITION. The names and records of the twelve blocks (00_scope.md, section 3.2): what each
block holds, as plain data. -/

namespace Sys2Proof.Machine

/-! ## Names -/

/-- A direction of travel or of a drive; closing lowers the position, opening raises it (R5). -/
inductive Dir where | closing | opening
  deriving DecidableEq, Repr

/-- The order modes (R77). -/
inductive Mode where | manual | auto
  deriving DecidableEq, Repr

/-- LOCAL and REMOTE (R77). -/
inductive Origin where | localReq | remoteReq
  deriving DecidableEq, Repr

/-- An order's target: END or a position (R77). -/
inductive Target where | toEnd | pos (p : Nat)
  deriving DecidableEq, Repr

/-- The mover kinds (R77, R177). The client that an order counts as (R119, R148) is `Order.client`:
for `client` and `learn` it is the mover's own number. -/
inductive Mover where | client | group (g : Fin 4) | companion (p : Chan) | learn
  deriving DecidableEq, Repr

/-- The learning phases of an order (R77). -/
inductive Phase where | notLearning | openEnd | refOpening | refClosing
  deriving DecidableEq, Repr

/-- The motion states, BRAKING within an order and BRAKING after a pinch apart (R76, R177). -/
inductive Motion where
  | idle | queued | brakingOrder | brakingPinch | closing | opening | reversing | waiting | fault
  deriving DecidableEq, Repr

/-- The FAULT reasons (R97). -/
inductive FaultReason where | quad | wiring | range | noSteps
  deriving DecidableEq, Repr

/-- The normalization levels NONE, CLOSED_KNOWN, ENDS_KNOWN, LEARNED (R155). -/
inductive Level where | noneKnown | closedKnown | endsKnown | learned
  deriving DecidableEq, Repr

/-- The supply states (section 2.2). -/
inductive SupplyState where | normal | low | high | crank
  deriving DecidableEq, Repr

/-- The zone kinds (section 4.3). -/
inductive ZoneKind where | seal | guard | watch
  deriving DecidableEq, Repr

/-- The reasons of a pinch decision (R52). -/
inductive PinchReason where | hard | accumulated | absolute | stall
  deriving DecidableEq, Repr

/-- The outcomes of an order (R100). -/
inductive OrderEnd where
  | target | closedEnd | openEnd | released | halted | replaced | claimed | lockedOut | pinch
  | obstructed | supply | companionBlocked | clamped | fault | restart | cancelled
  deriving DecidableEq, Repr

/-- The outcomes of a reversal (R100). -/
inductive RevEnd where | target | replaced | stalled | claimed | supply | fault | restart
  deriving DecidableEq, Repr

/-- The result codes (R174). -/
inductive Result where
  | none | done | accepted | busy | notPermitted | lockedOut | claimed | unlearned | supply
  | inhibited | calLocked | badArgument | frameError | notReady | empty
  deriving DecidableEq, Repr

/-- The event kinds (R179). -/
inductive EventKind where
  | pinch | reversalEnd | moveEnded | endReached | positionCorrected | drift | quadError
  | channelFault | supplyState | levelChanged | learnDone | learnFailed | groupDone | storeDone
  | clientLapse | startup
  deriving DecidableEq, Repr

/-- The kinds of learning run (chapter 9). -/
inductive RunKind where | openEnd | reference
  deriving DecidableEq, Repr

/-- The reasons of LEARN_FAILED (R167, R179). -/
inductive LearnFail where | range | coverage | shift | supply | interrupted | fault
  deriving DecidableEq, Repr

/-- The hold kinds of a companion wait record (R145). -/
inductive Hold where | none | leader | follower
  deriving DecidableEq, Repr

/-- The drive polarities (section 4.1). -/
inductive Polarity where | activeHigh | activeLow
  deriving DecidableEq, Repr

/-- The bus modes STB latches (R184). -/
inductive BusMode where | polled | direct
  deriving DecidableEq, Repr

/-! ## Hall interface (chapter 1) -/

/-- A capture record (section 1.5). -/
structure Capture where
  stamp : Word
  pos : Int
  dir : Dir
  reading : Nat
  deriving DecidableEq, Repr

/-- What HIF holds for a channel. -/
structure Hif where
  /-- the accepted pair, none while the phase is unknown (R4) -/
  phase : Option Pair
  /-- the pair filter's candidate and its stability count (R3) -/
  candidate : Option Pair
  count : Nat
  pos : Int
  posValid : Bool
  /-- oldest at the head, at most 2 (R12) -/
  fifo : List Capture
  gap : Bool
  quadErrors : Nat
  contrary : Nat
  drift : Nat
  deriving DecidableEq, Repr

/-! ## Load estimator (chapter 3) -/

/-- One band of a run record. -/
structure BandSum where
  sum : Nat
  count : Nat
  deriving DecidableEq, Repr

/-- The load context of a channel (section 3.1); `bands` to `qualified` are its run record. -/
structure LoadContext where
  runDir : Option Dir
  seeded : Bool
  tPrev : Word
  runUp : Nat
  blank : Nat
  smoothed : Int
  excess : Nat
  decided : Bool
  bands : Vector BandSum 127
  gapCount : Nat
  joltCount : Nat
  qualified : Bool
  deriving DecidableEq, Repr

/-! ## Channel calibration store (chapter 4) -/

/-- A zone record (section 4.3). -/
structure Zone where
  start : Nat
  kind : ZoneKind
  t : Nat
  e : Nat
  h : Nat
  deriving DecidableEq, Repr

/-- A channel's working calibration record (R54). Brake interval in units of 10 ms. -/
structure CalRecord where
  populated : Bool
  travel : Option Nat
  profile : Option (List Nat)
  zones : List Zone
  nr : Nat
  ru : Nat
  pn : Nat
  rd : Nat
  floor : Nat
  ms : Nat
  jolt : Nat
  bn : Nat
  brake : Nat
  polarity : Polarity
  companion : Option Chan
  gate : Nat
  requirement : Nat
  adaptations : Nat
  unsaved : Bool
  /-- the changed-since-snapshot mark (R74) -/
  changed : Bool
  deriving DecidableEq, Repr

/-- One client's row of the rights table (R58, R176): rights bit 0 MOVE, 1 GROUP, 2 LOCKOUT,
3 CLAIM, 4 CALIBRATE. -/
structure Rights where
  panels : BitVec 8
  rights : BitVec 5
  deriving DecidableEq, Repr

/-- The global record (R58). Start spacing in units of 10 ms. -/
structure GlobalRecord where
  ns : Nat
  ts : Nat
  rights : Vector Rights 4
  locked : Bool
  unsaved : Bool
  changed : Bool
  deriving DecidableEq, Repr

/-! ## Motion controller and slot arbiter (chapters 5 and 6) -/

/-- An order (R77). -/
structure Order where
  dir : Dir
  mode : Mode
  target : Target
  origin : Origin
  mover : Mover
  /-- the client the order counts as (R119, R148) -/
  client : Client
  phase : Phase
  k : Nat
  /-- the refresh deadline of a MANUAL order, in µs of `Clock.now` -/
  refresh : Option Nat
  /-- the acceptance time -/
  accepted : Word
  deriving DecidableEq, Repr

/-- What MOC holds for a channel, and its slot (SLA). Deadlines are in µs of `Clock.now`. -/
structure Moc where
  motion : Motion
  order : Option Order
  brakeRunning : Bool
  /-- when the brake timer expires, or expired -/
  brakeExpiry : Nat
  stall : Option Nat
  /-- drive-direction steps handed over since the drive-on (R51, R81) -/
  steps : Nat
  wait : Option Nat
  revTarget : Option Int
  latched : Bool
  noStep : Nat
  fault : Option FaultReason
  slot : Bool
  deriving DecidableEq, Repr

/-- The spacing timer (R111): unarmed, or armed at a time and run out or not. -/
inductive Spacing where | unarmed | armed (since : Nat) (ranOut : Bool)
  deriving DecidableEq, Repr

/-! ## Authority, companions and learning (chapters 7 to 9) -/

/-- What AUT holds for a channel: bit x of `claims` and `lockouts` is client x's. -/
structure Auth where
  claims : BitVec 4
  lockouts : BitVec 4
  inhibit : Bool
  pinchLevel : Nat
  overrideLevel : Nat
  /-- the expiry of an open override window -/
  window : Option Nat
  deriving DecidableEq, Repr

/-- A channel's learning record (R155). -/
structure Learning where
  kind : Option RunKind
  client : Option Client
  mark : Option LearnFail
  deriving DecidableEq, Repr

/-- Everything the blocks hold for one channel. -/
structure Channel where
  hif : Hif
  ctx : LoadContext
  cal : CalRecord
  moc : Moc
  auth : Auth
  hold : Hold
  level : Level
  learning : Learning
  deriving DecidableEq, Repr

/-- A member's outcome (R140). PENDING and RUNNING follow the channel's motion state, so a member
with neither a final outcome nor still to be judged is `live` (READ GROUP shows which of the two; log
entry 26). -/
inductive MemberOutcome where
  | toJudge | live | reached | reversed | ended (e : OrderEnd) | skipped (r : Result)
  deriving DecidableEq, Repr

/-- A group entry in use (section 8.1); the index is its place in the table. -/
structure GroupEntry where
  serial : Nat
  owner : Client
  dir : Dir
  origin : Origin
  members : Vector (Option MemberOutcome) 8
  deriving DecidableEq, Repr

/-- The zone staging buffer (section 4.6). -/
structure Staging where
  owner : Option Client
  bound : Chan
  records : List Zone
  deriving DecidableEq, Repr

/-! ## Client links and the status bus (chapter 10) -/

/-- An event record (R179). -/
structure Event where
  kind : EventKind
  chan : Option Chan
  word1 : Word
  detail : Word
  stamp : Word
  deriving DecidableEq, Repr

/-- A link's pending reply (R172); `status` is none until its moment (the reply NONE of a reset). -/
structure Reply where
  status : Option Byte
  result : Result
  data : Word
  deriving DecidableEq, Repr

/-- A link's frame shifter (R170). -/
structure Shifter where
  /-- select is low -/
  selected : Bool
  /-- the span began less than 2 µs after the previous select rise -/
  tooSoon : Bool
  /-- clocks seen in the span, held at 41 -/
  clocks : Nat
  /-- bits shifted in, first bit highest -/
  shiftIn : BitVec 40
  /-- the reply frame being shifted out -/
  shiftOut : BitVec 40
  /-- the time of the last select rise -/
  lastRise : Option Nat
  deriving DecidableEq, Repr

/-- What CLI holds for a link, and AUT's lapse timer of its client. -/
structure Link where
  shifter : Shifter
  reply : Reply
  /-- the reply frame that the last completed frame shifted out -/
  sent : BitVec 40
  /-- oldest at the head, at most 16 (R181) -/
  queue : List Event
  lost : Nat
  mask : Word
  /-- the time of the last valid frame (R134) -/
  lastFrame : Nat
  lapsed : Bool
  deriving DecidableEq, Repr

/-- What STB holds (R184): the latched mode; the sector phase, true for sector 1; when it began. -/
structure StatusBus where
  mode : BusMode
  sectorOne : Bool
  since : Nat
  deriving DecidableEq, Repr

/-! ## Supply monitor, load estimator's server, calibration memory -/

/-- What SUP holds (chapter 2). -/
structure Supply where
  reading : Nat
  state : SupplyState
  lowRun : Nat
  highRun : Nat
  exitRun : Nat
  settling : Nat
  deriving DecidableEq, Repr

/-- A record between LDE's take and completion, with what the take read (R31). -/
structure Take where
  chan : Chan
  since : Nat
  record : Capture
  gap : Bool
  blank : Nat
  level : Level
  k : Nat
  learnClose : Bool
  cal : CalRecord
  supply : SupplyState
  /-- a drive-on or restart of the channel came since the take: the results are dropped -/
  dropped : Bool
  /-- neighbour blanking was set on the channel since the take -/
  reblanked : Bool
  deriving DecidableEq, Repr

/-- What LDE holds for the whole device (R28, R30). -/
structure Lde where
  lastServed : Chan
  busy : Option Take
  deriving DecidableEq, Repr

/-- A stored record (R185): the format marker's two parts, whether the checksum holds, the contents
(log entry 19). -/
structure Stored (α : Type) where
  version : Word
  number : Nat
  sumOk : Bool
  contents : α
  deriving DecidableEq, Repr

/-- The conditions of a stored record (R185). -/
inductive Condition where | valid | blank | corrupt
  deriving DecidableEq, Repr

/-- The operation NVC has in progress, with its snapshot (R188, R190, R191). -/
inductive NvJob where
  | storeChannel (c : Chan) (snapshot : CalRecord)
  | storeGlobal (snapshot : GlobalRecord)
  | lockWrite (snapshot : GlobalRecord)
  | erase
  deriving DecidableEq, Repr

/-- The store-busy flag with its operation (`job`), when it began and when it completes. -/
structure Busy where
  job : NvJob
  since : Nat
  done : Nat
  deriving DecidableEq, Repr

/-- What NVC holds (chapter 11): the image and the store-busy flag. -/
structure Nvc where
  channels : Vector (Stored CalRecord) 8
  glob : Stored GlobalRecord
  busy : Option Busy
  deriving DecidableEq, Repr

/-! ## Time, pins, and the model's own bookkeeping -/

/-- The timebase and millisecond counter (R2). `now` is the microseconds since the release of reset,
the model's own scale for the deadlines "on this same time base"; `msPhase` is how far the timebase
has advanced since the millisecond counter last did. -/
structure Clock where
  now : Nat
  timebase : Word
  ms : Word
  msPhase : Nat
  deriving DecidableEq, Repr

/-- The input pins the device samples by itself (00_scope.md, section 4). -/
structure Pins where
  hall : Vector Pair 8
  supply : Nat
  stmode : Bool
  stsel : Bool
  deriving DecidableEq, Repr

/-- What one action leaves to be done after its whole effect: a grant test (R109), and GRP's tests
(R151, R152). `waiters` are the leaders waiting on the channel when the thing happened; `own` is the
leader whose internal open it was that ended, `ok` whether it ended TARGET or OPEN_END. -/
inductive Task where
  | grantTest
  | orderEnded (c : Chan) (waiters : List Chan) (own : Option Chan) (ok : Bool)
  | moved (c : Chan) (waiters : List Chan)
  | followerTest (c : Chan)
  deriving DecidableEq, Repr

end Sys2Proof.Machine
end

