-- ==== Sys2Proof/Machine/Defaults.lean ====
section
/-! DEFINITION. The erased defaults of the calibration records and the reset values of each block. -/

namespace Sys2Proof.Machine

/-- R57: the erased default zone list. -/
def defaultZones : List Zone :=
  [⟨0, .seal, 80, 600, 400⟩, ⟨24, .guard, 80, 600, 400⟩, ⟨1024, .watch, 160, 1200, 800⟩]

/-- R54, section 4.1: the erased defaults of a channel record. -/
def defaultCal : CalRecord where
  populated := true
  travel := none
  profile := none
  zones := defaultZones
  nr := 24
  ru := 3000
  pn := 1000
  rd := 400
  floor := 600
  ms := 12
  jolt := 256
  bn := 8
  brake := 3
  polarity := .activeHigh
  companion := none
  gate := 0
  requirement := 0
  adaptations := 0
  unsaved := false
  changed := false

/-- R58: the erased defaults of the global record: "every channel and every right, for every client". -/
def defaultGlobal : GlobalRecord where
  ns := 3
  ts := 4
  rights := Vector.replicate 4 ⟨0xFF, 0x1F⟩
  locked := false
  unsaved := false
  changed := false

/-- R16: HIF's reset values. -/
def resetHif : Hif where
  phase := none
  candidate := none
  count := 0
  pos := 0
  posValid := false
  fifo := []
  gap := false
  quadErrors := 0
  contrary := 0
  drift := 0

/-- R28: the reset load context. -/
def resetContext : LoadContext where
  runDir := none
  seeded := false
  tPrev := 0
  runUp := 0
  blank := 0
  smoothed := 0
  excess := 0
  decided := false
  bands := Vector.replicate 127 ⟨0, 0⟩
  gapCount := 0
  joltCount := 0
  qualified := false

/-- R76, R83: MOC's reset values; the brake timer runs from the release of reset, with the default
interval until the load gives the record's (log entry 18). R103: no slot is held. -/
def resetMoc : Moc where
  motion := .idle
  order := none
  brakeRunning := true
  brakeExpiry := 30000
  stall := none
  steps := 0
  wait := none
  revTarget := none
  latched := false
  noStep := 0
  fault := none
  slot := false

/-- R115: AUT's reset values. -/
def resetAuth : Auth where
  claims := 0
  lockouts := 0
  inhibit := false
  pinchLevel := 0
  overrideLevel := 0
  window := none

/-- R155: no learning run. -/
def noLearning : Learning := ⟨none, none, none⟩

/-- A channel after reset; R55: the working record holds the erased defaults. -/
def resetChannel : Channel where
  hif := resetHif
  ctx := resetContext
  cal := defaultCal
  moc := resetMoc
  auth := resetAuth
  hold := .none
  level := .noneKnown
  learning := noLearning

/-- R22: SUP's reset values. -/
def resetSupply : Supply := ⟨0, .normal, 0, 0, 0, 0⟩

/-- R28: "The last-served channel of the round-robin rule (R30) is set to 7". R28 says nothing of a
record between take and completion at the reset: LDE is free and forgets it, so it never completes (DESIGN CHOICE, log
entry 38). -/
def resetLde : Lde := ⟨7, none⟩

/-- The shifter after reset: select high, the rest 0 (log entry 17). R170 says nothing of reset: a span that RESET_N
finds in progress is forgotten, and so is the last select rise before it, so that the first span after a reset is never
too soon (DESIGN CHOICE, log entry 40). -/
def resetShifter : Shifter := ⟨false, false, 0, 0, 0, none⟩

/-- R172, R181, R115: a link after reset. -/
def resetLink : Link where
  shifter := resetShifter
  reply := ⟨none, .none, 0⟩
  sent := 0
  queue := []
  lost := 0
  mask := 0xFFFF
  lastFrame := 0
  lapsed := false

/-- R64: the staging buffer after reset; the bound channel is the model's (log entry 17). -/
def emptyStaging : Staging := ⟨none, 0, []⟩

/-- R184: STB after reset, with the mode latched from STMODE. -/
def resetBus (stmode : Bool) : StatusBus := ⟨if stmode then .direct else .polled, false, 0⟩

/-- R2: both counters are 0. -/
def resetClock : Clock := ⟨0, 0, 0, 0⟩

/-- A record with no valid format marker (R185). -/
def blankRecord {α : Type} (contents : α) : Stored α := ⟨0xFFFF, 0, false, contents⟩

/-- The image of a part that was never written (log entry 9). -/
def blankImage : Nvc where
  channels := Vector.replicate 8 (blankRecord defaultCal)
  glob := blankRecord defaultGlobal
  busy := none

/-- The input pins at rest (log entry 10). -/
def restPins : Pins := ⟨Vector.replicate 8 0, 0, false, false⟩

end Sys2Proof.Machine
end

