-- ==== Sys2Proof/Machine/State.lean ====
section
/-! DEFINITION. The state of the block, the reasons a step can stop, and the state after reset. -/

namespace Sys2Proof.Machine

/-- Why the machine stops with a fault: the manual names no condition under which the device stops,
so no meaning raises one (a closed inductive without constructors). A channel's FAULT is a motion
state, not a stop of the device. -/
inductive Fault where
  deriving DecidableEq, Repr

/-- Why a command has no meaning. -/
inductive Refusal where
  /-- Raised by an arm of `exec` whose command is not modelled yet; no arm is. Safe: the run stops. -/
  | notModelled (mnemonic : String)
  deriving DecidableEq, Repr

/-- Everything the manual gives the device, and the model's own bookkeeping (the last three fields). -/
structure State where
  clock : Clock
  pins : Pins
  /-- what HIF, LDE, CCS, MOC, SLA, AUT, GRP and NRM hold per channel -/
  chans : Vector Channel 8
  sup : Supply
  lde : Lde
  glob : GlobalRecord
  /-- CCS: calibration is loaded (R55) -/
  calLoaded : Bool
  /-- SLA: the start queue, head first (R105) -/
  startQueue : List Chan
  spacing : Spacing
  staging : Staging
  /-- GRP: the group table, none for a free entry, and the serial counter (R137) -/
  groups : Vector (Option GroupEntry) 4
  serial : Nat
  links : Vector Link 4
  /-- CLI: READY (R173) -/
  ready : Bool
  stb : StatusBus
  nvc : Nvc
  /-- the model's own: how many open choices were drawn so far (log entry 5) -/
  fresh : Nat
  /-- the model's own: what the action in progress has left to do; empty between commands -/
  agenda : List Task
  /-- the commands that are waiting, first in, first out -/
  pending : List Instr
  deriving DecidableEq, Repr

/-- The device right after power-on, before its start-up load, with an image never written. -/
def State.reset : State where
  clock := resetClock
  pins := restPins
  chans := Vector.replicate 8 resetChannel
  sup := resetSupply
  lde := resetLde
  glob := defaultGlobal
  calLoaded := false
  startQueue := []
  spacing := .unarmed
  staging := emptyStaging
  groups := Vector.replicate 4 none
  serial := 0
  links := Vector.replicate 4 resetLink
  ready := false
  stb := resetBus false
  nvc := blankImage
  fresh := 0
  agenda := []
  pending := []

end Sys2Proof.Machine
end

