-- ==== Sys2Proof/Machine/Operands.lean ====
section
/-! DEFINITION. Operand forms and code tables of chapter 10: how a request's fields are read and how
values are written into replies and event words. -/

namespace Sys2Proof.Machine

/-! ## Arithmetic conventions (R1) -/

/-- R1: "the clamp is inclusive at both bounds". -/
def clampInt (lo hi x : Int) : Int := max lo (min x hi)

/-- A natural number clamped into `lo..hi`. -/
def clampNat (lo hi x : Nat) : Nat := max lo (min x hi)

/-- R1: a counter that saturates at `bound` takes one more. -/
def satSucc (bound n : Nat) : Nat := min bound (n + 1)

/-- A signed quantity as 16-bit two's complement (R176). -/
def signedWord (x : Int) : Word := BitVec.ofInt 16 x

/-- A count as a 16-bit word. -/
def natWord (n : Nat) : Word := BitVec.ofNat 16 n

/-- Two bytes as a word, the first the high byte. -/
def bytesWord (hi lo : Nat) : Word := BitVec.ofNat 8 hi ++ BitVec.ofNat 8 lo

/-- A Bool as 0 or 1. -/
def bit (b : Bool) : Nat := if b then 1 else 0

/-! ## The channel field of a request -/

/-- Channels 0 to 7; numbers 8 to 15 name no channel (00_scope.md, section 5.4). -/
def chanOf (p : BitVec 4) : Option Chan := if h : p.toNat < 8 then some ⟨p.toNat, h⟩ else none

/-- Panel number 15. -/
def isPanel15 (p : BitVec 4) : Bool := p == 15

/-! ## Masks (R176): "bit n for channel n, in the low byte; high byte 0" -/

/-- A panel mask in an argument; none when the high byte is not 0. -/
def panelMask (a : Word) : Option (BitVec 8) :=
  if a.extractLsb' 8 8 = 0 then some (a.extractLsb' 0 8) else none

/-- Channel `c` is in the mask. -/
def inMask (m : BitVec 8) (c : Chan) : Bool := m.getLsbD c.val

/-- The channels of a mask, in channel order. -/
def maskChans (m : BitVec 8) : List Chan := allChans.filter (inMask m)

/-- The mask of the channels that satisfy `f`. -/
def maskWhere (f : Chan → Bool) : BitVec 8 :=
  allChans.foldl (fun m c => if f c then m ||| ((1 : BitVec 8) <<< c.val) else m) 0

/-- A mask as a word's low byte. -/
def maskWord (m : BitVec 8) : Word := m.setWidth 16

/-- Client `x` is in a set of clients. -/
def hasClient (m : BitVec 4) (x : Client) : Bool := m.getLsbD x.val

/-- The set with client `x` added. -/
def addClient (m : BitVec 4) (x : Client) : BitVec 4 := m ||| ((1 : BitVec 4) <<< x.val)

/-- The set without client `x`. -/
def dropClient (m : BitVec 4) (x : Client) : BitVec 4 := m &&& ~~~((1 : BitVec 4) <<< x.val)

/-- How many clients a set holds. -/
def clientCount (m : BitVec 4) : Nat := (allClients.filter (hasClient m)).length

/-- The lowest client of a set. -/
def firstClient (m : BitVec 4) : Option Client := allClients.find? (hasClient m)

/-! ## Targets (R176): "a position 0..4064, or FFFFh for END" -/

/-- The target an argument spells; none for 4065 to FFFEh, which "is out of range by R117". -/
def targetOf (a : Word) : Option Target :=
  if a = 0xFFFF then some .toEnd else if a.toNat ≤ 4064 then some (.pos a.toNat) else none

/-- A target as reply data. -/
def targetWord : Target → Word
  | .toEnd => 0xFFFF
  | .pos p => natWord p

/-! ## MOVE and GROUP MOVE modifiers (R176) -/

/-- The direction bit: 0 close, 1 open. -/
def dirOf (b : Bool) : Dir := if b then .opening else .closing

/-- The mode bit: 0 MANUAL, 1 AUTO. -/
def modeOf (b : Bool) : Mode := if b then .auto else .manual

/-- The origin bit: 0 LOCAL, 1 REMOTE. -/
def originOf (b : Bool) : Origin := if b then .remoteReq else .localReq

/-- "bit 0 direction; bit 1 mode; bit 2 origin; bit 3 must be 0". -/
def moveModifier (m : BitVec 4) : Option (Dir × Mode × Origin) :=
  if m.getLsbD 3 then none
  else some (dirOf (m.getLsbD 0), modeOf (m.getLsbD 1), originOf (m.getLsbD 2))

/-- "bit 0 direction; bit 1 origin; bits 3 to 2 must be 0". -/
def groupModifier (m : BitVec 4) : Option (Dir × Origin) :=
  if m.getLsbD 3 || m.getLsbD 2 then none
  else some (dirOf (m.getLsbD 0), originOf (m.getLsbD 1))

/-! ## Rights (R176): high byte panel mask; low byte the rights set, bits 7 to 5 must be 0 -/

/-- The rights a value spells. -/
def rightsOf (a : Word) : Option Rights :=
  if a.extractLsb' 5 3 = 0 then some ⟨a.extractLsb' 8 8, a.extractLsb' 0 5⟩ else none

/-- A row of the rights table as a value. -/
def rightsWord (r : Rights) : Word := r.panels ++ (r.rights.setWidth 8)

/-- The rights of R58, by their bit of R176. -/
inductive Right where | move | group | lockout | claim | calibrate
  deriving DecidableEq, Repr

/-- The bit of a right. -/
def rightBit : Right → Nat
  | .move => 0
  | .group => 1
  | .lockout => 2
  | .claim => 3
  | .calibrate => 4

/-! ## Code tables -/

/-- R174. -/
def resultCode : Result → Nat
  | .none => 0
  | .done => 1
  | .accepted => 2
  | .busy => 3
  | .notPermitted => 4
  | .lockedOut => 5
  | .claimed => 6
  | .unlearned => 7
  | .supply => 8
  | .inhibited => 9
  | .calLocked => 10
  | .badArgument => 11
  | .frameError => 12
  | .notReady => 13
  | .empty => 14

/-- R179, first code table. -/
def eventCode : EventKind → Nat
  | .pinch => 0
  | .reversalEnd => 1
  | .moveEnded => 2
  | .endReached => 3
  | .positionCorrected => 4
  | .drift => 5
  | .quadError => 6
  | .channelFault => 7
  | .supplyState => 8
  | .levelChanged => 9
  | .learnDone => 10
  | .learnFailed => 11
  | .groupDone => 12
  | .storeDone => 13
  | .clientLapse => 14
  | .startup => 15

/-- R179: the outcome codes of an order. -/
def orderEndCode : OrderEnd → Nat
  | .target => 0
  | .closedEnd => 1
  | .openEnd => 2
  | .released => 3
  | .halted => 4
  | .replaced => 5
  | .claimed => 6
  | .lockedOut => 7
  | .pinch => 8
  | .obstructed => 9
  | .supply => 10
  | .companionBlocked => 11
  | .clamped => 12
  | .fault => 13
  | .restart => 14
  | .cancelled => 15

/-- R179: the outcome codes of a reversal. -/
def revEndCode : RevEnd → Nat
  | .target => 16
  | .replaced => 17
  | .stalled => 18
  | .claimed => 19
  | .supply => 20
  | .fault => 21
  | .restart => 22

/-- R177: the motion state codes. -/
def motionCode : Motion → Nat
  | .idle => 0
  | .queued => 1
  | .brakingOrder => 2
  | .brakingPinch => 3
  | .closing => 4
  | .opening => 5
  | .reversing => 6
  | .waiting => 7
  | .fault => 8

/-- R177: the level codes, in the order of the levels. -/
def levelCode : Level → Nat
  | .noneKnown => 0
  | .closedKnown => 1
  | .endsKnown => 2
  | .learned => 3

/-- R177: the hold kind codes. -/
def holdCode : Hold → Nat
  | .none => 0
  | .leader => 1
  | .follower => 2

/-- R177: the FAULT reason codes, 0 for none. -/
def faultCode : Option FaultReason → Nat
  | .none => 0
  | some .quad => 1
  | some .wiring => 2
  | some .range => 3
  | some .noSteps => 4

/-- R173: the supply state codes. -/
def supplyCode : SupplyState → Nat
  | .normal => 0
  | .low => 1
  | .high => 2
  | .crank => 3

/-- R179: the pinch reason codes. -/
def pinchCode : PinchReason → Nat
  | .hard => 0
  | .accumulated => 1
  | .absolute => 2
  | .stall => 3

/-- R179: the LEARN_FAILED reason codes. -/
def learnFailCode : LearnFail → Nat
  | .range => 0
  | .coverage => 1
  | .shift => 2
  | .supply => 3
  | .interrupted => 4
  | .fault => 5

/-- R179: the run kind bit. -/
def runKindCode : RunKind → Nat
  | .openEnd => 0
  | .reference => 1

/-- R177: the learning phase codes. -/
def phaseCode : Phase → Nat
  | .notLearning => 0
  | .openEnd => 1
  | .refOpening => 2
  | .refClosing => 3

/-- R68, R71: the zone kind codes. -/
def zoneKindCode : ZoneKind → Nat
  | .seal => 0
  | .guard => 1
  | .watch => 2

/-- R68: the kind an argument names. -/
def zoneKindOf (a : Word) : Option ZoneKind :=
  match a.toNat with
  | 0 => some .seal
  | 1 => some .guard
  | 2 => some .watch
  | _ => none

/-! ## Event words (R179) -/

/-- PINCH: "bits 15 to 13 reason; bits 12 to 0 load, 13-bit signed". -/
def pinchDetail (r : PinchReason) (load : Int) : Word :=
  BitVec.ofNat 3 (pinchCode r) ++ BitVec.ofInt 13 load

/-- SUPPLY_STATE: "bits 15 to 14 state; bits 10 to 0 reading". -/
def supplyDetail (st : SupplyState) (reading : Nat) : Word :=
  BitVec.ofNat 2 (supplyCode st) ++ (0 : BitVec 3) ++ BitVec.ofNat 11 reading

/-- LEARN_DONE: "bit 8 run kind". -/
def learnDoneDetail (k : RunKind) : Word := natWord (256 * runKindCode k)

/-- LEARN_FAILED: "bits 15 to 12 reason; bit 8 run kind; bits 7 to 0 order outcome code for
INTERRUPTED, else 0". -/
def learnFailedDetail (r : LearnFail) (k : RunKind) (e : OrderEnd) : Word :=
  natWord (4096 * learnFailCode r + 256 * runKindCode k +
    (if r = .interrupted then orderEndCode e else 0))

/-- The four words of an event record; word 0 has the kind in its high byte and the channel, or 15,
in bits 3 to 0. -/
def eventWord (e : Event) : Nat → Word
  | 0 => bytesWord (eventCode e.kind) ((e.chan.map Fin.val).getD 15)
  | 1 => e.word1
  | 2 => e.detail
  | _ => e.stamp

end Sys2Proof.Machine
end

