-- ==== Sys2Proof/Machine/Profile.lean ====
section
/-! DEFINITION. The lookups CCS answers and the arithmetic on profiles: bands, zones, adaptation,
coverage (chapters 3, 4 and 9). -/

namespace Sys2Proof.Machine

/-! ## Bands (R40, R54, R56) -/

/-- R54: nb = ceil(Lt / 32). -/
def bandTotal (travel : Nat) : Nat := (travel + 31) / 32

/-- R40: "The band of position x is 0 when x is below 0 and min(x div 32, nb − 1) otherwise." -/
def bandOf (travel : Nat) (x : Int) : Nat :=
  if x < 0 then 0 else min (x.toNat / 32) (bandTotal travel - 1)

/-- R56: the width of band b is 32, of the top band Lt − 32(nb − 1). -/
def bandWidth (travel b : Nat) : Nat :=
  if b + 1 < bandTotal travel then 32 else travel - 32 * (bandTotal travel - 1)

/-- R40: the reference of the band that `x` lies in; none while no profile is present. -/
def reference (r : CalRecord) (x : Int) : Option Nat :=
  match r.travel, r.profile with
  | some t, some bands => bands[bandOf t x]?
  | _, _ => none

/-- R79: the soft stop Lt − Ms, none while Lt is absent. -/
def softStop (r : CalRecord) : Option Nat := r.travel.map fun t => t - r.ms

/-! ## Zones (R38, R79) -/

/-- R38: "the record of the channel's zone list with the greatest start that is at or below
max(x, 0)". -/
def zoneAt (zones : List Zone) (x : Int) : Option Zone :=
  (zones.filter fun z => (z.start : Int) ≤ max x 0).getLast?

/-- The kind of the zone in force at `x`. -/
def zoneKindAt (zones : List Zone) (x : Int) : Option ZoneKind := (zoneAt zones x).map Zone.kind

/-- R79: the start of the first zone whose kind is not SEAL. -/
def firstOpenZone (zones : List Zone) : Option Nat :=
  (zones.find? fun z => z.kind ≠ .seal).map Zone.start

/-- R69: the list holds 1 to 6 records, the first start is 0, the starts rise, and every T, E and H
is within its range. -/
def zonesValid (zones : List Zone) : Bool :=
  decide (1 ≤ zones.length ∧ zones.length ≤ 6) &&
  (zones.head?.map Zone.start == some 0) &&
  decide (List.Pairwise (fun a b => a < b) (zones.map Zone.start)) &&
  zones.all fun z => decide (16 ≤ z.t ∧ z.t ≤ 2048 ∧ 64 ≤ z.e ∧ z.e ≤ 65535 ∧ 64 ≤ z.h ∧ z.h ≤ 4095)

/-! ## Marks (R74) -/

/-- R74: "Each change of the working record named below sets both to yes". -/
def CalRecord.markChanged (r : CalRecord) : CalRecord := { r with unsaved := true, changed := true }

/-- R74 for the global record. -/
def GlobalRecord.markChanged (g : GlobalRecord) : GlobalRecord :=
  { g with unsaved := true, changed := true }

/-! ## Adaptation (R73) -/

/-- R73 for one band of present value `r`, with its width and its sums of the run. -/
def adaptBand (r width : Nat) (b : BandSum) : Nat :=
  if b.count = width then
    let dev : Int := (b.sum / b.count : Nat) - (r : Int)
    if dev.natAbs ≤ r / 4 then (clampInt 200 60000 (r + dev.tdiv 8)).toNat else r
  else r

/-- R73: the bands from index `b` on, corrected. -/
def adaptBands (travel : Nat) : List Nat → List BandSum → Nat → List Nat
  | r :: rs, s :: ss, b => adaptBand r (bandWidth travel b) s :: adaptBands travel rs ss (b + 1)
  | rs, _, _ => rs

/-- R73 on a record: "When at least one band value changed, the adaptation count rises by 1,
saturating at 65535, and the record is marked unsaved". -/
def adaptRecord (r : CalRecord) (run : LoadContext) : CalRecord :=
  match r.travel, r.profile with
  | some t, some bands =>
    let new := adaptBands t bands run.bands.toList 0
    if new = bands then r
    else ({ r with profile := some new, adaptations := satSucc 65535 r.adaptations }).markChanged
  | _, _ => r

/-- R72, conditions 1 to 3 and 5 to 7, and 4 (the profile is present): whether the closing order
that ended at a closed end with this correction qualifies. -/
def qualifies (o : Order) (correction : Int) (r : CalRecord) (run : LoadContext) : Bool :=
  decide (o.mode = .auto) && decide (o.mover ≠ .learn) && decide (o.k = 0) &&
  decide (correction.natAbs ≤ 24) && r.profile.isSome && run.qualified &&
  decide (run.gapCount ≤ 4) && decide (run.joltCount ≤ 4)

/-! ## Coverage (R166) -/

/-- R166 from band `b` on, `prev` being the value just formed for the band before. -/
def coverFrom (nb : Nat) : List BandSum → Nat → Nat → Option (List Nat)
  | [], _, _ => some []
  | s :: ss, b, prev =>
    if 8 ≤ s.count then
      let v := clampNat 200 60000 (s.sum / s.count)
      (coverFrom nb ss (b + 1) v).map (v :: ·)
    else if nb ≤ b + 2 then (coverFrom nb ss (b + 1) prev).map (prev :: ·)
    else none

/-- R166: the new profile, or none where the rule fails with COVERAGE. -/
def coveredProfile (travel : Nat) (run : LoadContext) : Option (List Nat) :=
  coverFrom (bandTotal travel) (run.bands.toList.take (bandTotal travel)) 0 0

/-! ## Target normalization (R79) -/

/-- R79, "MOC normalizes the target of each order at its installation", for an order of direction
`d` and learning phase `ph` on a channel of level `lvl` with record `r`. -/
def normalizeTarget (r : CalRecord) (lvl : Level) (d : Dir) (ph : Phase) (t : Target) : Target :=
  if ph = .openEnd ∨ lvl = .noneKnown then .toEnd
  else
    match d, t with
    | .closing, .toEnd => .toEnd
    | .closing, .pos p =>
      match firstOpenZone r.zones with
      | some z => if p < z then .toEnd else .pos p
      | none => .toEnd
    | .opening, t =>
      match lvl, softStop r with
      | .closedKnown, _ => t
      | _, none => t
      | _, some stop =>
        match t with
        | .toEnd => .pos stop
        | .pos p => .pos (min p stop)

/-- R79: "at or below it for a closing order, or at or above it for an opening order"; END "is not
reached by a step" (R85). -/
def atTarget (d : Dir) (t : Target) (x : Int) : Bool :=
  match d, t with
  | _, .toEnd => false
  | .closing, .pos p => x ≤ p
  | .opening, .pos p => (p : Int) ≤ x

/-- R144: a target is above G "when it is END or a position above G". -/
def aboveGate (t : Target) (g : Nat) : Bool :=
  match t with
  | .toEnd => true
  | .pos p => g < p

/-- R144: a target is at or above Q "when it is END or a position at or above Q". -/
def reachesRequirement (t : Target) (q : Nat) : Bool :=
  match t with
  | .toEnd => true
  | .pos p => q ≤ p

/-- R149: a close order's target "is END or a position below Q". -/
def belowRequirement (t : Target) (q : Nat) : Bool :=
  match t with
  | .toEnd => true
  | .pos p => p < q

end Sys2Proof.Machine
end

