-- ==== Sys2Proof/Machine/Ops.lean ====
section
/-! DEFINITION. The named operations over the state that every meaning is written with: accessors,
time, event posting, the blocks' reactions to a drive-on and a drive-off, slots and the start queue,
the reports to GRP and NRM, and the ends of orders and reversals. -/

namespace Sys2Proof.Machine

/-! ## Accessors -/

/-- What the blocks hold for channel `c`. -/
def State.ch (s : State) (c : Chan) : Channel := s.chans[c]

/-- What CLI holds for link `x`. -/
def State.link (s : State) (x : Client) : Link := s.links[x]

/-- Entry `g` of the group table. -/
def State.group (s : State) (g : Fin 4) : Option GroupEntry := s.groups[g]

/-- Change what the blocks hold for channel `c`. -/
def updChan (c : Chan) (f : Channel → Channel) (s : State) : State :=
  { s with chans := s.chans.set c (f s.chans[c]) }

/-- Change HIF's part of channel `c`. -/
def updHif (c : Chan) (f : Hif → Hif) : State → State := updChan c fun k => { k with hif := f k.hif }

/-- Change the load context of channel `c`. -/
def updCtx (c : Chan) (f : LoadContext → LoadContext) : State → State :=
  updChan c fun k => { k with ctx := f k.ctx }

/-- Change the working record of channel `c`. -/
def updCal (c : Chan) (f : CalRecord → CalRecord) : State → State :=
  updChan c fun k => { k with cal := f k.cal }

/-- Change MOC's part of channel `c`. -/
def updMoc (c : Chan) (f : Moc → Moc) : State → State := updChan c fun k => { k with moc := f k.moc }

/-- Change AUT's part of channel `c`. -/
def updAuth (c : Chan) (f : Auth → Auth) : State → State :=
  updChan c fun k => { k with auth := f k.auth }

/-- Set the hold kind of channel `c`. -/
def setHold (c : Chan) (h : Hold) : State → State := updChan c fun k => { k with hold := h }

/-- Change the learning record of channel `c`. -/
def updLearning (c : Chan) (f : Learning → Learning) : State → State :=
  updChan c fun k => { k with learning := f k.learning }

/-- Change what CLI holds for link `x`. -/
def updLink (x : Client) (f : Link → Link) (s : State) : State :=
  { s with links := s.links.set x (f s.links[x]) }

/-- Put `e` into entry `g` of the group table. -/
def setGroup (g : Fin 4) (e : Option GroupEntry) (s : State) : State :=
  { s with groups := s.groups.set g e }

/-- Leave `t` to be done after the action's whole effect. -/
def push (t : Task) (s : State) : State := { s with agenda := s.agenda ++ [t] }

/-- The global record with `f` applied. -/
def updGlobal (f : GlobalRecord → GlobalRecord) (s : State) : State := { s with glob := f s.glob }

/-- The rights of client `x` as the global record holds them. -/
def State.rights (s : State) (x : Client) : Rights := s.glob.rights[x]

/-- R116: client `x` holds the right. -/
def State.hasRight (s : State) (x : Client) (r : Right) : Bool := (s.rights x).rights.getLsbD (rightBit r)

/-- R116: channel `c` is in the panel mask of client `x`. -/
def State.mayAct (s : State) (x : Client) (c : Chan) : Bool := inMask (s.rights x).panels c

/-- R54: the channel's populated flag. -/
def State.populated (s : State) (c : Chan) : Bool := (s.ch c).cal.populated

/-- R58: "bit n of the mask is the populated flag of channel n". -/
def State.populatedMask (s : State) : BitVec 8 := maskWhere s.populated

/-- R188, R191: NVC is erasing. -/
def State.erasing (s : State) : Bool :=
  match s.nvc.busy with
  | some b => b.job = .erase
  | none => false

/-! ## Time (R2) -/

/-- `k` microseconds pass and nothing else happens: the timebase advances by one each microsecond,
the millisecond counter each 1000. -/
def elapse (k : Nat) (s : State) : State :=
  { s with clock :=
    { now := s.clock.now + k
      timebase := s.clock.timebase + BitVec.ofNat 16 k
      ms := s.clock.ms + BitVec.ofNat 16 ((s.clock.msPhase + k) / 1000)
      msPhase := (s.clock.msPhase + k) % 1000 } }

/-- Draw one open choice between two posting orders (log entry 6). -/
def drawPostsFirst (s : State) : Bool × State :=
  (Config.postsFirst s.fresh, { s with fresh := s.fresh + 1 })

/-! ## Posting an event (R180, R181) -/

/-- R181: a record joins a link's queue; a full queue first drops its head. -/
def joinQueue (e : Event) (l : Link) : Link :=
  if 16 ≤ l.queue.length then
    { l with queue := l.queue.tail ++ [e], lost := satSucc 255 l.lost }
  else { l with queue := l.queue ++ [e] }

/-- R180: the clients whose queue the record joins. "A CLIENT_LAPSE event is not delivered to the
client it names." -/
def State.selects (s : State) (e : Event) (x : Client) : Bool :=
  (s.link x).mask.getLsbD (eventCode e.kind) &&
  (match e.chan with
   | some c => s.mayAct x c
   | none => true) &&
  !(e.kind = .clientLapse && e.detail = natWord x.val)

/-- Deliver one record to client `x` if it selects it. -/
def deliver (e : Event) (s : State) (x : Client) : State :=
  if s.selects e x then updLink x (joinQueue e) s else s

/-- R180: CLI stamps the record and delivers it at once; R62: none is posted for an unpopulated
channel. -/
def post (kind : EventKind) (c : Option Chan) (word1 detail : Word) (s : State) : State :=
  if (match c with | some d => s.populated d | none => true) then
    let e : Event := ⟨kind, c, word1, detail, s.clock.ms⟩
    allClients.foldl (deliver e) s
  else s

/-- Post an event of channel `c` whose position word is `pos`. -/
def postAt (kind : EventKind) (c : Chan) (pos : Int) (detail : Word) : State → State :=
  post kind (some c) (signedWord pos) detail

/-! ## The companion links (R144, R145) -/

/-- The leaders that name `c` as their companion, in channel order. -/
def State.leadersOf (s : State) (c : Chan) : List Chan :=
  allChans.filter fun p => (s.ch p).cal.companion = some c

/-- The leaders waiting on `c` (R151). -/
def State.waitersOn (s : State) (c : Chan) : List Chan :=
  (s.leadersOf c).filter fun p => (s.ch p).moc.motion = .waiting ∧ (s.ch p).hold = .leader

/-- R152: something happened on leader `p`; its follower's hold is tested again. -/
def notifyFollower (p : Chan) (s : State) : State :=
  match (s.ch p).cal.companion with
  | some c => push (.followerTest c) s
  | none => s

/-- R151, R152: the order or reversal of `c` ended. `own` is the leader whose internal open it was;
`ok` says that it ended TARGET or OPEN_END. -/
def noteEnd (c : Chan) (own : Option Chan) (ok : Bool) (s : State) : State :=
  s |> push (.orderEnded c (s.waitersOn c) own ok) |> notifyFollower c

/-- R151: an order was installed on `c`, or an opening drive step of `c` was handed to MOC. -/
def noteMoved (c : Chan) (s : State) : State := push (.moved c (s.waitersOn c)) s

/-- The leader whose internal open an order is (R148). -/
def Order.ownOpen (o : Order) : Option Chan :=
  match o.mover with
  | .companion p => some p
  | _ => none

/-! ## HIF: set-position, clearing (R8, R14, R15, R17) -/

/-- R8: "the counter takes the value and the position-valid flag takes the validity"; R152: a
set-position of a leader is a test of its follower. -/
def setPosition (c : Chan) (x : Int) (valid : Bool) (s : State) : State :=
  s |> updHif c (fun h => { h with pos := x, posValid := valid }) |> notifyFollower c

/-- R14, R17: the FIFO is emptied, the gap mark and the three counts are cleared. -/
def Hif.clearRun (h : Hif) : Hif :=
  { h with fifo := [], gap := false, quadErrors := 0, contrary := 0, drift := 0 }

/-- R17: "the pair filter is cleared and the phase is marked unknown". -/
def Hif.restart (h : Hif) : Hif :=
  { h.clearRun with phase := none, candidate := none, count := 0 }

/-! ## Drives (R81, R82) -/

/-- The direction of the drive that is on in a motion state (section 5.1). -/
def Motion.drive : Motion → Option Dir
  | .closing => some .closing
  | .opening => some .opening
  | .reversing => some .opening
  | .idle => none
  | .queued => none
  | .brakingOrder => none
  | .brakingPinch => none
  | .waiting => none
  | .fault => none

/-- A drive of channel `c` is on. -/
def State.driveIsOn (s : State) (c : Chan) : Bool := (s.ch c).moc.motion.drive.isSome

/-- R29: the load context at a drive-on; a closing one also clears the run record. -/
def LoadContext.startRun (d : Dir) (k : LoadContext) : LoadContext :=
  let k' := { k with
    runDir := some d, seeded := false, runUp := 0, blank := 0, smoothed := 0, excess := 0
    decided := false }
  match d with
  | .opening => k'
  | .closing => { k' with
      bands := Vector.replicate 127 ⟨0, 0⟩, gapCount := 0, joltCount := 0, qualified := true }

/-- R31: a drive-on or restart of `c` between the take and the completion drops the results. -/
def dropTake (c : Chan) (s : State) : State :=
  match s.lde.busy with
  | some t => if t.chan = c then { s with lde := { s.lde with busy := some { t with dropped := true } } } else s
  | none => s

/-- R44: channel `j` "is in a closing run at that moment and past its run-up". -/
def State.pastRunUp (s : State) (j : Chan) : Bool :=
  decide ((s.ch j).ctx.runDir = some .closing) && decide ((s.ch j).moc.motion = .closing) &&
  decide ((s.ch j).cal.nr ≤ (s.ch j).ctx.runUp)

/-- R44 for one neighbour `j`: "The blank count of each such channel becomes that channel's own Bn".
A record of `j` between take and completion is not touched by it (log entry 11). -/
def blankOne (c : Chan) (s : State) (j : Chan) : State :=
  if j ≠ c ∧ s.pastRunUp j = true then
    let s := updCtx j (fun k => { k with blank := (s.ch j).cal.bn }) s
    match s.lde.busy with
    | some t => if t.chan = j then { s with lde := { s.lde with busy := some { t with reblanked := true } } } else s
    | none => s
  else s

/-- R44: neighbour blanking at a drive-on of `c`. -/
def blankNeighbours (c : Chan) (s : State) : State := allChans.foldl (blankOne c) s

/-- R81: the drive of direction `d` turns on and the channel's motion becomes `m`; R14, R29, R44,
R51 (the stall timer starts at 150 ms), R111 (the spacing timer is armed). -/
def driveOn (c : Chan) (m : Motion) (d : Dir) (s : State) : State :=
  s |> updHif c Hif.clearRun
    |> updCtx c (LoadContext.startRun d)
    |> dropTake c
    |> blankNeighbours c
    |> updMoc c (fun k => { k with motion := m, stall := some (s.clock.now + 150000), steps := 0 })
    |> fun s => { s with spacing := .armed s.clock.now false }

/-- R82, R83: if a drive is on it turns off: the stall timer stops, the brake timer starts with the
interval the record holds, and HIF clears the drift count (R11). The motion state is the caller's. -/
def driveOff (c : Chan) (s : State) : State :=
  if s.driveIsOn c then
    s |> updHif c (fun h => { h with drift := 0 })
      |> updMoc c (fun k => { k with
          stall := none, brakeRunning := true
          brakeExpiry := s.clock.now + 10000 * (s.ch c).cal.brake })
  else s

/-! ## Slots and the start queue (chapter 6) -/

/-- The channel holds an order. -/
def State.hasOrder (s : State) (c : Chan) : Bool := (s.ch c).moc.order.isSome

/-- R103: channel `c` holds a slot. -/
def State.holdsSlot (s : State) (c : Chan) : Bool := (s.ch c).moc.slot

/-- How many channels hold a slot. -/
def State.slotCount (s : State) : Nat := (allChans.filter s.holdsSlot).length

/-- R112: release the slot if it is held; "Each release is a grant test (R109)". -/
def releaseSlot (c : Chan) (s : State) : State :=
  if s.holdsSlot c then s |> updMoc c (fun k => { k with slot := false }) |> push .grantTest else s

/-- R108: the entry leaves and "the others keep their order". -/
def leaveQueue (c : Chan) (s : State) : State :=
  { s with startQueue := s.startQueue.filter (· ≠ c) }

/-- R105: the class of an entry is the direction of its channel's order. -/
def State.opens (s : State) (c : Chan) : Bool :=
  match (s.ch c).moc.order with
  | some o => o.dir = .opening
  | none => false

/-- R105, R106: join the tail of the class of the order's direction and become QUEUED; a grant test
follows. A channel already in the queue leaves its place first (R107). -/
def joinStartQueue (c : Chan) (s : State) : State :=
  let q := s.startQueue.filter (· ≠ c)
  let q' := if s.opens c then q.takeWhile s.opens ++ [c] ++ q.dropWhile s.opens else q ++ [c]
  { s with startQueue := q' } |> updMoc c (fun k => { k with motion := .queued }) |> push .grantTest

/-! ## The normalization level (R155) -/

/-- R155: set the level; a change posts LEVEL_CHANGED with the position word given. -/
def setLevel (c : Chan) (lvl : Level) (pos : Int) (s : State) : State :=
  if (s.ch c).level = lvl then s
  else s |> updChan c (fun k => { k with level := lvl })
         |> postAt .levelChanged c pos (natWord (levelCode lvl))

/-! ## GRP: members and their outcomes (R140, R141) -/

/-- A final outcome has been recorded. -/
def MemberOutcome.isFinal : MemberOutcome → Bool
  | .toJudge => false
  | .live => false
  | .reached => true
  | .reversed => true
  | .ended _ => true
  | .skipped _ => true

/-- Every member of the entry has a final outcome. -/
def GroupEntry.complete (e : GroupEntry) : Bool :=
  allChans.all fun c => match e.members[c] with
    | some o => o.isFinal
    | none => true

/-- R141: "the mask of the members whose final outcome is not REACHED, skipped members included". -/
def GroupEntry.missed (e : GroupEntry) : BitVec 8 :=
  maskWhere fun c => match e.members[c] with
    | some .reached => false
    | some _ => true
    | none => false

/-- R141: a complete entry posts GROUP_DONE and is freed. -/
def finishGroup (g : Fin 4) (s : State) : State :=
  match s.group g with
  | some e =>
    if e.complete then
      s |> post .groupDone none (maskWord e.missed) (bytesWord g.val e.serial) |> setGroup g none
    else s
  | none => s

/-- R140: record the final outcome of a member without one. -/
def recordMember (g : Fin 4) (c : Chan) (o : MemberOutcome) (s : State) : State :=
  match s.group g with
  | some e =>
    if e.members[c] = some .live then
      s |> setGroup g (some { e with members := e.members.set c (some o) }) |> finishGroup g
    else s
  | none => s

/-- R140: the final outcome that an order's end gives a member of a group of direction `d`. -/
def memberEnd (d : Dir) (e : OrderEnd) : MemberOutcome :=
  match d, e with
  | .closing, .closedEnd => .reached
  | .opening, .target => .reached
  | .opening, .openEnd => .reached
  | _, e => .ended e

/-- R140: the final outcome that a reversal's end gives. -/
def memberRevEnd : RevEnd → MemberOutcome
  | .target => .reversed
  | .stalled => .reversed
  | .replaced => .ended .replaced
  | .claimed => .ended .claimed
  | .supply => .ended .supply
  | .fault => .ended .fault
  | .restart => .ended .restart

/-- R100, step 6: report the end of order `o` of channel `c` to the group it is a member's of. A
PINCH gives no final outcome. -/
def reportGroup (c : Chan) (o : Order) (e : OrderEnd) (s : State) : State :=
  match o.mover with
  | .group g =>
    match s.group g with
    | some entry => if e = .pinch then s else recordMember g c (memberEnd entry.dir e) s
    | none => s
  | _ => s

/-- R140: report the end of the reversal of `c`; the member whose PINCH it followed is the one of
`c` without a final outcome. -/
def reportGroupReversal (c : Chan) (e : RevEnd) (s : State) : State :=
  [0, 1, 2, 3].foldl (fun s g => recordMember g c (memberRevEnd e) s) s

/-! ## NRM: the end of a learning run (R165, R167) -/

/-- R167: LEARN_FAILED with the reason; the learning record is reset. -/
def learnFailed (c : Chan) (kind : RunKind) (r : LearnFail) (e : OrderEnd) (pos : Int) (s : State) : State :=
  s |> postAt .learnFailed c pos (learnFailedDetail r kind e) |> updLearning c (fun _ => noLearning)

/-- R165, R162: LEARN_DONE; the learning record is reset. -/
def learnDone (c : Chan) (kind : RunKind) (pos : Int) (s : State) : State :=
  s |> postAt .learnDone c pos (learnDoneDetail kind) |> updLearning c (fun _ => noLearning)

/-- R167: the reason that the order's end gives a run without a failure mark. -/
def failReason (e : OrderEnd) : LearnFail :=
  match e with
  | .supply => .supply
  | .fault => .fault
  | _ => .interrupted

/-- R165, case 2 and 3: judge the closing half that ended CLOSED_END without a mark. -/
def learnClose (c : Chan) (pos : Int) (s : State) : State :=
  match (s.ch c).cal.travel with
  | none => learnFailed c .reference .coverage .closedEnd pos s
  | some t =>
    match coveredProfile t (s.ch c).ctx with
    | none => learnFailed c .reference .coverage .closedEnd pos s
    | some bands =>
      s |> updCal c (fun r => ({ r with profile := some bands, adaptations := 0 }).markChanged)
        |> setLevel c .learned pos
        |> learnDone c .reference pos

/-- R167: the one report of a learning run, at the end of its order. -/
def reportLearning (c : Chan) (o : Order) (e : OrderEnd) (pos : Int) (s : State) : State :=
  match o.mover, (s.ch c).learning.kind with
  | .learn, some kind =>
    match (s.ch c).learning.mark with
    | some r => learnFailed c kind r e pos s
    | none =>
      if o.phase = .openEnd ∧ e = .openEnd then learnDone c kind pos s
      else if o.phase = .refClosing ∧ e = .closedEnd then learnClose c pos s
      else learnFailed c kind (failReason e) e pos s
  | _, _ => s

/-! ## The end of an order (R100, R101) -/

/-- R100, steps 1 to 4, and the state after: the drive turns off if it is on, the slot is released,
the queue entry and the wait are dropped, and the channel holds no order. -/
def stopChannel (c : Chan) (m : Motion) (s : State) : State :=
  s |> driveOff c
    |> releaseSlot c
    |> leaveQueue c
    |> updMoc c (fun k => { k with motion := m, order := none, wait := none, revTarget := none })
    |> setHold c .none

/-- R100: the order of `c` ends with outcome `e` and the channel's motion becomes `m`. `before`
posts what R101 puts ahead of MOVE_ENDED; `after` is what the same end makes other blocks do between
MOVE_ENDED and the report of a learning run (R167: "after the level change of the same end"). -/
def endOrderWith (c : Chan) (e : OrderEnd) (m : Motion) (before after : State → State) (s : State) : State :=
  match (s.ch c).moc.order with
  | none => s
  | some o =>
    s |> stopChannel c m
      |> noteEnd c o.ownOpen (e = .target || e = .openEnd)
      |> before
      |> fun s =>
        let pos := (s.ch c).hif.pos
        s |> postAt .moveEnded c pos (natWord (orderEndCode e))
          |> reportGroup c o e
          |> after
          |> reportLearning c o e pos

/-- R100: the order of `c` ends with outcome `e`; the channel becomes IDLE. -/
def endOrder (c : Chan) (e : OrderEnd) : State → State := endOrderWith c e .idle id id

/-- R101: END_REACHED (open) at a TARGET "at the soft stop Lt − Ms" of an opening order, also where no
step was made (log entry 16). -/
def endTarget (c : Chan) (s : State) : State :=
  match (s.ch c).moc.order with
  | none => s
  | some o =>
    if o.dir = .opening ∧ (softStop (s.ch c).cal).map Target.pos = some o.target then
      endOrderWith c .target .idle (postAt .endReached c (s.ch c).hif.pos 1) id s
    else endOrder c .target s

/-- The order becomes current on `c`; a group's member is then without a final outcome (R140). -/
def holdOrder (c : Chan) (o : Order) (s : State) : State :=
  let s' := updMoc c (fun k => { k with order := some o }) s
  match o.mover with
  | .group g =>
    match s'.group g with
    | some e => setGroup g (some { e with members := e.members.set c (some .live) }) s'
    | none => s'
  | _ => s'

/-- R78: the old order ends REPLACED: "posts MOVE_ENDED with that outcome before the new order takes
any further effect". The channel's state is the caller's. -/
def replaceOrder (c : Chan) (new : Order) (s : State) : State :=
  match (s.ch c).moc.order with
  | none => holdOrder c new s
  | some o =>
    let pos := (s.ch c).hif.pos
    s |> noteEnd c o.ownOpen false
      |> postAt .moveEnded c pos (natWord (orderEndCode .replaced))
      |> reportGroup c o .replaced
      |> reportLearning c o .replaced pos
      |> holdOrder c new

/-! ## The end of a reversal (R93, R94, R95) -/

/-- R94: the reversal of `c` ends with outcome `e` and the channel's motion becomes `m`. -/
def endReversalTo (c : Chan) (e : RevEnd) (m : Motion) (s : State) : State :=
  s |> stopChannel c m
    |> noteEnd c none false
    |> postAt .reversalEnd c (s.ch c).hif.pos (natWord (revEndCode e))
    |> reportGroupReversal c e

/-- R95: an open order replaces the reversal: it ends REV_REPLACED, the order becomes current and the
channel's motion becomes `m`; the slot and, in REVERSING, the drive are kept. -/
def replaceReversal (c : Chan) (new : Order) (m : Motion) (s : State) : State :=
  s |> updMoc c (fun k => { k with motion := m, revTarget := none })
    |> noteEnd c none false
    |> postAt .reversalEnd c (s.ch c).hif.pos (natWord (revEndCode .replaced))
    |> reportGroupReversal c .replaced
    |> holdOrder c new

/-- The reversal ends and the channel becomes IDLE. -/
def endReversal (c : Chan) (e : RevEnd) : State → State := endReversalTo c e .idle

/-- R93: at REV_TARGET AUT opens the 10 s override window (R130). -/
def reversalAtTarget (c : Chan) (s : State) : State :=
  s |> endReversal c .target
    |> updAuth c (fun a => { a with window := some (s.clock.now + 10000000) })

/-- The channel is in BRAKING after a pinch or REVERSING. -/
def State.inReversal (s : State) (c : Chan) : Bool :=
  (s.ch c).moc.motion = .brakingPinch || (s.ch c).moc.motion = .reversing

/-! ## Faults (R98) -/

/-- R98: entry into FAULT with a reason; `after` is NRM's lowering for RANGE (R7). "A further fault
condition reported while the channel is in FAULT keeps the recorded reason and posts nothing." -/
def enterFaultWith (c : Chan) (r : FaultReason) (after : State → State) (s : State) : State :=
  if (s.ch c).moc.motion = .fault then after s
  else
    let s' := s |> driveOff c
      |> updMoc c (fun k => { k with fault := some r })
      |> postAt .channelFault c (s.ch c).hif.pos (natWord (faultCode (some r)))
    if s.inReversal c then s' |> endReversalTo c .fault .fault |> after
    else if s.hasOrder c then endOrderWith c .fault .fault id after s'
    else s' |> updMoc c (fun k => { k with motion := .fault }) |> after

/-- R98 for the reasons that leave the level as it stands. -/
def enterFault (c : Chan) (r : FaultReason) : State → State := enterFaultWith c r id

end Sys2Proof.Machine
end

