-- ==== Sys2Proof/Machine/Admission.lean ====
section
/-! DEFINITION. AUT's admission checks (R117 to R119), shared by MOVE, group members and internal
follower opens, and the effect of an admission on the override level (R130, R131). -/

namespace Sys2Proof.Machine

/-- R117 check 3, R128: a client other than `x` holds a lockout on `c`. -/
def State.lockedOut (s : State) (x : Client) (c : Chan) : Bool := dropClient (s.ch c).auth.lockouts x ≠ 0

/-- R118: the level allows the direction and mode. -/
def levelAllows (lvl : Level) (d : Dir) (m : Mode) : Bool :=
  match m, d with
  | .manual, _ => true
  | .auto, .opening => lvl = .endsKnown || lvl = .learned
  | .auto, .closing => lvl = .learned

/-- R119: a MANUAL open whose refresh deadline has not passed. -/
def Order.heldOpen (o : Order) (now : Nat) : Bool :=
  o.dir = .opening && o.mode = .manual &&
  (match o.refresh with
   | some d => now ≤ d
   | none => false)

/-- R119, check 9: the channel's state and order do not allow a request of direction `d` by `x`. -/
def State.busyFor (s : State) (x : Client) (c : Chan) (d : Dir) : Bool :=
  if s.inReversal c then d = .closing
  else
    match (s.ch c).moc.motion, (s.ch c).moc.order with
    | .waiting, _ => false
    | _, some o => d = .closing && o.heldOpen s.clock.now && o.client ≠ x
    | _, none => false

/-- R117, checks 3 to 9, for a request of direction `d`, mode `m` and origin `org` that counts as
client `x`'s: the first check that fails gives the result, none when all pass. -/
def State.refusal (s : State) (x : Client) (c : Chan) (d : Dir) (m : Mode) (org : Origin) : Option Result :=
  if s.lockedOut x c then some .lockedOut
  else if (s.ch c).auth.claims ≠ 0 then some .claimed
  else if (s.ch c).moc.motion = .fault ∨ s.calLoaded = false ∨ s.erasing = true then some .notReady
  else if !levelAllows (s.ch c).level d m then some .unlearned
  else if d = .closing ∧ org = .remoteReq ∧ (s.ch c).auth.inhibit = true then some .inhibited
  else if (s.ch c).moc.motion = .idle ∧ s.sup.state ≠ .normal then some .supply
  else if s.busyFor x c d then some .busy
  else none

/-- R117, checks 3 to 8 (a refresh "is not judged by check 9", R121): the same list without BUSY. -/
def State.refusalBeforeBusy (s : State) (x : Client) (c : Chan) (d : Dir) (m : Mode) (org : Origin) :
    Option Result :=
  match s.refusal x c d m org with
  | some .busy => none
  | r => r

/-- R130: the window closes and both levels become 0. -/
def clearOverride (c : Chan) (s : State) : State :=
  updAuth c (fun a => { a with window := none, pinchLevel := 0, overrideLevel := 0 }) s

/-- R131: the k that a MOVE takes: raised for a LOCAL MANUAL close admitted in an open window. -/
def State.overrideFor (s : State) (c : Chan) (d : Dir) (m : Mode) (org : Origin) : Nat :=
  if d = .closing ∧ m = .manual ∧ org = .localReq ∧ (s.ch c).auth.window.isSome = true then
    min 2 ((s.ch c).auth.pinchLevel + 1)
  else 0

end Sys2Proof.Machine
end

