-- ==== Sys2Proof/Machine/Companion.lean ====
section
/-! DEFINITION. Installing an order (R78), turning a granted or braked channel's drive on (R84, R110),
the leader's gate and the follower's clamp (R146 to R152), the grant test (R109), and `settle`, which
does what an action has left to be done. -/

namespace Sys2Proof.Machine

/-! ## The tests of a companion link (R144) -/

/-- R144: leader `p` is beyond its gate. -/
def State.beyondGate (s : State) (p : Chan) : Bool :=
  !(s.ch p).hif.posValid || decide (((s.ch p).cal.gate : Int) < (s.ch p).hif.pos)

/-- R146: the leader is beyond its gate or its counter equals G. -/
def State.atGate (s : State) (p : Chan) : Bool :=
  s.beyondGate p || decide ((s.ch p).hif.pos = ((s.ch p).cal.gate : Int))

/-- R144: follower `c` meets the requirement of leader `p`. -/
def State.meets (s : State) (p c : Chan) : Bool :=
  (s.ch c).hif.posValid && decide (((s.ch p).cal.requirement : Int) ≤ (s.ch c).hif.pos)

/-- The channel holds a close order. -/
def State.holdsClose (s : State) (c : Chan) : Bool :=
  match (s.ch c).moc.order with
  | some o => o.dir = .closing
  | none => false

/-- R147, second row: the follower holds an open order or a reversal whose target is at or above Q,
in QUEUED, BRAKING, OPENING or REVERSING. -/
def State.comingOpen (s : State) (p c : Chan) : Bool :=
  let q := (s.ch p).cal.requirement
  match (s.ch c).moc.motion, (s.ch c).moc.order, (s.ch c).moc.revTarget with
  | .brakingPinch, _, some t => decide ((q : Int) ≤ t)
  | .reversing, _, some t => decide ((q : Int) ≤ t)
  | .queued, some o, _ => decide (o.dir = .opening) && reachesRequirement o.target q
  | .brakingOrder, some o, _ => decide (o.dir = .opening) && reachesRequirement o.target q
  | .opening, some o, _ => decide (o.dir = .opening) && reachesRequirement o.target q
  | _, _, _ => false

/-- R147, third row: the follower is IDLE, or holds a close order in QUEUED, BRAKING within an order,
CLOSING or WAITING. -/
def State.openable (s : State) (c : Chan) : Bool :=
  match (s.ch c).moc.motion with
  | .idle => true
  | .queued => s.holdsClose c
  | .brakingOrder => s.holdsClose c
  | .closing => s.holdsClose c
  | .waiting => s.holdsClose c
  | .opening => false
  | .brakingPinch => false
  | .reversing => false
  | .fault => false

/-- R149: leader `p` clamps the close order `o` of follower `c`. -/
def State.clampedBy (s : State) (c : Chan) (o : Order) (p : Chan) : Bool :=
  belowRequirement o.target (s.ch p).cal.requirement &&
  decide ((s.ch c).hif.pos ≤ ((s.ch p).cal.requirement : Int)) && s.beyondGate p

/-- R149: any one leader clamps the order. -/
def State.clamped (s : State) (c : Chan) (o : Order) : Bool := (s.leadersOf c).any (s.clampedBy c o)

/-- R152: leader `p` still holds follower `c`: "p's position must be valid, its counter at or below
G, and p must hold no open order and no reversal". -/
def State.stillClamps (s : State) (c p : Chan) : Bool :=
  decide ((s.ch c).hif.pos ≤ ((s.ch p).cal.requirement : Int)) &&
  (s.beyondGate p || s.opens p || s.inReversal p)

/-! ## Installation (R78) -/

/-- R163: the opening half becomes the closing half in place. -/
def changePhase (c : Chan) (s : State) : State :=
  updMoc c (fun k => { k with order := k.order.map fun o =>
    { o with dir := .closing, target := .toEnd, phase := .refClosing } }) s

/-- R79: the order with its target normalized for channel `c`. -/
def State.normalized (s : State) (c : Chan) (o : Order) : Order :=
  { o with target := normalizeTarget (s.ch c).cal (s.ch c).level o.dir o.phase o.target }

/-- R78: install an order whose target is normalized, by the channel's motion state. A WAITING
channel is left for GRP to decide (R150). -/
def installBasic (c : Chan) (o : Order) (s : State) : State :=
  let s' := match (s.ch c).moc.motion with
    | .idle =>
      let s := holdOrder c o s
      if atTarget o.dir o.target (s.ch c).hif.pos then
        if o.phase = .refOpening then s |> changePhase c |> joinStartQueue c else endTarget c s
      else joinStartQueue c s
    | .queued =>
      if s.opens c = decide (o.dir = .opening) then replaceOrder c o s
      else s |> replaceOrder c o |> joinStartQueue c
    | .brakingOrder => replaceOrder c o s
    | .closing =>
      if o.dir = .closing then replaceOrder c o s
      else s |> replaceOrder c o |> driveOff c |> updMoc c (fun k => { k with motion := .brakingOrder })
    | .opening =>
      if o.dir = .opening then replaceOrder c o s
      else s |> replaceOrder c o |> driveOff c |> updMoc c (fun k => { k with motion := .brakingOrder })
    | .brakingPinch => replaceReversal c o .brakingOrder s
    | .reversing => replaceReversal c o .opening s
    | .waiting =>
      s |> replaceOrder c o |> updMoc c (fun k => { k with wait := none }) |> setHold c .none
    | .fault => s
  noteMoved c s'

/-! ## The leader's gate (R146 to R148) -/

/-- The outcome of a gate test. -/
inductive Gate where | pass | wait | blocked
  deriving DecidableEq, Repr

/-- R148: the internal open that leader `p` installs on its follower, for `p`'s order `o`. -/
def internalOpen (p : Chan) (o : Order) (accepted : Word) : Order where
  dir := .opening
  mode := .auto
  target := .toEnd
  origin := o.origin
  mover := .companion p
  client := o.client
  phase := .notLearning
  k := 0
  refresh := none
  accepted := accepted

/-- R148: install an admitted internal open on follower `c`: on a WAITING follower "it joins the tail
of the opening class". A follower leads no link itself (R61, log entry 25). -/
def installInternal (c : Chan) (o : Order) (s : State) : State :=
  let s' := s |> clearOverride c |> installBasic c (s.normalized c o)
  if (s.ch c).moc.motion = .waiting then joinStartQueue c s' else s'

/-- R151: what leader `p` waits for once its internal open is installed on `c`. An open that R78 found at
its target at installation has ended there, short of Q: "the leader's order ends COMPANION_BLOCKED at
that end". -/
def afterInternal (c : Chan) (s : State) : Gate × State :=
  (if (s.ch c).moc.order.isSome then .wait else .blocked, s)

/-- R147: the gate test of leader `p`, whose order is `o`, at its follower `c`. -/
def gateTest (p c : Chan) (o : Order) (s : State) : Gate × State :=
  if s.meets p c && !s.holdsClose c then (.pass, s)
  else if s.comingOpen p c then (.wait, s)
  else if s.openable c then
    let i := internalOpen p o s.clock.ms
    match s.refusal i.client c i.dir i.mode i.origin with
    | some _ => (.blocked, s)
    | none => afterInternal c (installInternal c i s)
  else (.blocked, s)

/-- R150: entry into WAITING, or waiting on with a new order: the drive turns off if it is on, the
slot is released, and the wait deadline is 10 s from now. -/
def enterWaiting (c : Chan) (h : Hold) (s : State) : State :=
  s |> driveOff c
    |> releaseSlot c
    |> updMoc c (fun k => { k with motion := .waiting, wait := some (s.clock.now + 10000000) })
    |> setHold c h

/-- R146: the order makes a gate test on the occasions of a drive-on, a replaced reversal and an
installation in WAITING; the follower it tests. -/
def State.gateDue (s : State) (p : Chan) (o : Order) : Option Chan :=
  if o.dir = .opening ∧ aboveGate o.target (s.ch p).cal.gate = true ∧ s.atGate p = true then
    (s.ch p).cal.companion
  else none

/-- Do what the gate test gives: `passed` on a pass, WAITING on a wait (R150), COMPANION_BLOCKED. -/
def throughGate (p : Chan) (o : Order) (passed : State → State) (due : Option Chan) (s : State) : State :=
  match due with
  | none => passed s
  | some c =>
    match gateTest p c o s with
    | (.pass, s') => passed s'
    | (.wait, s') => enterWaiting p .leader s'
    | (.blocked, s') => endOrder p .companionBlocked s'

/-! ## Turning on (R84, R110) -/

/-- The drive of an order that is not at its target turns on, unless the gate (R146) or the clamp
(R149) makes it wait or ends its order. -/
def driveGated (c : Chan) (s : State) : State :=
  match (s.ch c).moc.order with
  | none => s
  | some o =>
    match o.dir with
    | .opening => throughGate c o (driveOn c .opening .opening) (s.gateDue c o) s
    | .closing => if s.clamped c o then enterWaiting c .follower s else driveOn c .closing .closing s

/-- R79, R84, R110: the target test at the moment the drive would turn on, and what follows. -/
def startDrive (c : Chan) (s : State) : State :=
  match (s.ch c).moc.order with
  | none => s
  | some o =>
    if atTarget o.dir o.target (s.ch c).hif.pos then
      if o.phase = .refOpening then s |> changePhase c |> driveGated c else endTarget c s
    else driveGated c s

/-! ## Grants (R109) -/

/-- R109, condition 2: the spacing timer is unarmed or Ts has elapsed since it was armed. -/
def State.spacingElapsed (s : State) : Bool :=
  match s.spacing with
  | .unarmed => true
  | .armed t _ => t + 10000 * s.glob.ts ≤ s.clock.now

/-- R109, condition 3: the first entry in queue order whose brake timer has expired. -/
def State.eligible (s : State) : Option Chan :=
  s.startQueue.find? fun c => !(s.ch c).moc.brakeRunning

/-- R109, R110: "One test grants at most one slot." -/
def grantTest (s : State) : State :=
  if s.slotCount < s.glob.ns ∧ s.spacingElapsed = true then
    match s.eligible with
    | some c => s |> leaveQueue c |> updMoc c (fun k => { k with slot := true }) |> startDrive c
    | none => s
  else s

/-! ## Waiting and resuming (R150 to R152) -/

/-- R151, R152: resumption: the deadline is dropped, the hold kind becomes none, and the channel
joins the tail of the class of its order. -/
def resume (c : Chan) (s : State) : State :=
  s |> updMoc c (fun k => { k with wait := none }) |> setHold c .none |> joinStartQueue c

/-- Leader `p` waits on follower `c` (hold kind LEADER). -/
def State.waitsOn (s : State) (p c : Chan) : Bool :=
  decide ((s.ch p).moc.motion = .waiting) && decide ((s.ch p).hold = .leader) &&
  decide ((s.ch p).cal.companion = some c)

/-- R151: the order or reversal of `c` ended while `p` waited; a `p` that waits on keeps its deadline
(log entry 23). -/
def leaderAfterEnd (c : Chan) (own : Option Chan) (ok : Bool) (s : State) (p : Chan) : State :=
  if s.waitsOn p c then
    if own = some p then
      if ok && s.meets p c && !s.holdsClose c then resume p s else endOrder p .companionBlocked s
    else if s.holdsClose c then endOrder p .companionBlocked s
    else
      match (s.ch p).moc.order with
      | none => s
      | some o =>
        match gateTest p c o s with
        | (.pass, s') => resume p s'
        | (.wait, s') => s'
        | (.blocked, s') => endOrder p .companionBlocked s'
  else s

/-- R151: `c` made an opening drive step or took an order while `p` waited. -/
def leaderAfterMove (c : Chan) (s : State) (p : Chan) : State :=
  if s.waitsOn p c && s.meets p c && !s.holdsClose c then resume p s else s

/-- R152: the held follower `c` resumes when no leader that names it still clamps it. -/
def followerAfter (c : Chan) (s : State) : State :=
  if (s.ch c).moc.motion = .waiting ∧ (s.ch c).hold = .follower ∧
      (s.leadersOf c).any (s.stillClamps c) = false then resume c s else s

/-- One thing left to be done. -/
def runTask (t : Task) (s : State) : State :=
  match t with
  | .grantTest => grantTest s
  | .orderEnded c waiters own ok => waiters.foldl (leaderAfterEnd c own ok) s
  | .moved c waiters => waiters.foldl (leaderAfterMove c) s
  | .followerTest c => followerAfter c s

/-- Do what is left to be done, in the order it was left, at most `n` things. -/
def settleN : Nat → State → State
  | 0, s => { s with agenda := [] }
  | n + 1, s =>
    match s.agenda with
    | [] => s
    | t :: ts => settleN n (runTask t { s with agenda := ts })

/-- Do all that an action has left to be done (log entry 12: 256 things are more than any action
leaves). -/
def settle (s : State) : State := settleN 256 s

/-! ## Full installation -/

/-- R150: a new order on a channel that was WAITING: the gate test, the clamp test, or the queue. -/
def installWaiting (c : Chan) (s : State) : State :=
  match (s.ch c).moc.order with
  | none => s
  | some o =>
    match o.dir with
    | .opening => throughGate c o (joinStartQueue c) (s.gateDue c o) s
    | .closing => if s.clamped c o then enterWaiting c .follower s else joinStartQueue c s

/-- R78 whole: install an order (its target still to be normalized) on `c`. In WAITING GRP decides
(R150); an open that replaces a REVERSING channel's reversal makes the gate test (R146, occasion 3). -/
def install (c : Chan) (o : Order) (s : State) : State :=
  let o' := s.normalized c o
  let s' := installBasic c o' s
  match (s.ch c).moc.motion with
  | .waiting => installWaiting c s'
  | .reversing => throughGate c o' id (s'.gateDue c o') s'
  | _ => s'

/-- R120, R130: an admitted order is handed to MOC; the admission of an open closes the window. -/
def handOver (c : Chan) (o : Order) (s : State) : State :=
  if o.dir = .opening then s |> clearOverride c |> install c o else install c o s

end Sys2Proof.Machine
end

