-- ==== Sys2Proof/Machine/Flags.lean ====
section
/-! DEFINITION. Every flag and word the outside sees: the status byte (R173), the words of READ PANEL
(R177), the drive outputs (R80), the attention lines (R183) and the status bus (R184). -/

namespace Sys2Proof.Machine

/-! ## The status byte (R173) -/

/-- R173: at least one channel is in FAULT. -/
def State.anyFault (s : State) : Bool := allChans.any fun c => (s.ch c).moc.motion = .fault

/-- R173: this link's event queue holds at least one record. -/
def State.attn (s : State) (x : Client) : Bool := !(s.link x).queue.isEmpty

/-- R173: the status byte of link `x`, as it stands. -/
def State.statusByte (s : State) (x : Client) : Byte :=
  BitVec.ofNat 8
    (128 * bit s.ready + 64 * bit (s.attn x) + 32 * bit (decide ((s.link x).lost ≠ 0)) +
     16 * bit s.nvc.busy.isSome + 8 * bit s.glob.locked + 2 * supplyCode s.sup.state + bit s.anyFault)

/-! ## READ PANEL (R177) -/

/-- R114: "The place is 1 for the head of the queue"; 0 when the channel is not in it. -/
def State.queuePlace (s : State) (c : Chan) : Nat :=
  match s.startQueue.findIdx? (· = c) with
  | some i => i + 1
  | none => 0

/-- R136, R150: the milliseconds remaining to a deadline; the division truncates (R1, log entry 24). -/
def State.msLeft (s : State) (deadline : Option Nat) : Nat :=
  match deadline with
  | some d => (d - s.clock.now) / 1000
  | none => 0

/-- Selector 1. -/
def State.motionWord (s : State) (c : Chan) : Word :=
  natWord (4096 * motionCode (s.ch c).moc.motion + 1024 * levelCode (s.ch c).level +
    256 * holdCode (s.ch c).hold + 16 * faultCode (s.ch c).moc.fault + s.queuePlace c)

/-- Selector 2; "Bits 13 to 12 of selector 2 are 0 while bit 14 is clear." -/
def State.flagWord (s : State) (c : Chan) : Word :=
  let k := s.ch c
  let holder := (firstClient k.auth.lockouts).map Fin.val
  natWord (bit k.hif.posValid + 2 * bit k.moc.latched + 4 * bit k.auth.inhibit + 8 * bit k.cal.unsaved +
    16 * bit k.moc.slot + 32 * bit k.moc.brakeRunning + 64 * k.auth.overrideLevel +
    256 * k.auth.claims.toNat + 4096 * holder.getD 0 + 16384 * bit holder.isSome)

/-- The mover number and kind of an order: "the client, the group index, the leader channel or the
learning client, by the mover kind". -/
def Order.moverBits (o : Order) : Nat :=
  match o.mover with
  | .client => 256 * o.client.val
  | .group g => 256 * g.val + 2048
  | .companion p => 256 * p.val + 4096
  | .learn => 256 * o.client.val + 6144

/-- Selector 3; "the word is 0 when no order is held". -/
def orderWord (o : Option Order) : Word :=
  match o with
  | none => 0
  | some o =>
    natWord (1 + 2 * bit (o.dir = .opening) + 4 * bit (o.mode = .auto) + 8 * bit (o.origin = .remoteReq) +
      16 * o.k + 64 * phaseCode o.phase + o.moverBits)

/-- R177: the field of channel `c` that selector `n` (0 to 14) names. -/
def State.panelField (s : State) (c : Chan) (n : Nat) : Word :=
  let k := s.ch c
  match n with
  | 0 => signedWord k.hif.pos
  | 1 => s.motionWord c
  | 2 => s.flagWord c
  | 3 => orderWord k.moc.order
  | 4 => (k.moc.order.map fun o => targetWord o.target).getD 0xFFFE
  | 5 => (k.moc.order.map Order.accepted).getD 0
  | 6 => (k.moc.revTarget.map signedWord).getD 0xFFFE
  | 7 => signedWord k.ctx.smoothed
  | 8 => natWord k.ctx.excess
  | 9 => bytesWord k.hif.quadErrors k.hif.contrary
  | 10 => bytesWord k.hif.drift k.moc.noStep
  | 11 => bytesWord k.ctx.joltCount k.ctx.gapCount
  | 12 => natWord (s.msLeft k.auth.window)
  | 13 => natWord (s.msLeft (k.moc.order.bind Order.refresh))
  | _ => natWord (s.msLeft k.moc.wait)

/-! ## Plain outputs -/

/-- A level of an output pin. -/
inductive PinLevel where | highImpedance | low | high
  deriving DecidableEq, Repr

/-- R80: the level of a drive output, `on` saying that its drive is on. -/
def outputLevel (p : Polarity) (on : Bool) : PinLevel :=
  match p, on with
  | .activeHigh, true => .high
  | .activeHigh, false => .low
  | .activeLow, true => .low
  | .activeLow, false => .high

/-- R80: the drive output of `c` for direction `d`: high-impedance until the load completes. -/
def State.driveOutput (s : State) (c : Chan) (d : Dir) : PinLevel :=
  if s.ready then outputLevel (s.ch c).cal.polarity ((s.ch c).moc.motion.drive = some d) else .highImpedance

/-- R183: the attention line of link `x` "is asserted, driven low, while that client's event queue
holds at least one record". -/
def State.attentionLow (s : State) (x : Client) : Bool := s.attn x

/-- R184, sector 0: IDLE, position valid, counter at or below 24. -/
def State.closedFlag (s : State) (c : Chan) : Bool :=
  decide ((s.ch c).moc.motion = .idle) && (s.ch c).hif.posValid && decide ((s.ch c).hif.pos ≤ 24)

/-- R184, sector 1: the reversal-latched flag is set, or the channel is in FAULT. -/
def State.attentionFlag (s : State) (c : Chan) : Bool :=
  (s.ch c).moc.latched || decide ((s.ch c).moc.motion = .fault)

/-- R184: sector 1 is shown: by the sector phase in POLLED, by STSEL in DIRECT. -/
def State.showsAttention (s : State) : Bool :=
  match s.stb.mode with
  | .polled => s.stb.sectorOne
  | .direct => s.pins.stsel

/-- R184: status line `c`: "An unpopulated channel's line is low in both sectors"; low until READY. -/
def State.statusLine (s : State) (c : Chan) : Bool :=
  s.ready && s.populated c && (if s.showsAttention then s.attentionFlag c else s.closedFlag c)

/-- R184: "STSYNC is high while sector 0 is shown"; low until READY. -/
def State.stsync (s : State) : Bool := s.ready && !s.showsAttention

end Sys2Proof.Machine
end

