-- ==== Sys2Proof/Machine/Motion.lean ====
section
/-! DEFINITION. Motion: pinch and reversal (R91 to R93), closed and open ends (R87 to R89), the stall
(R86, R90), the brake expiry (R84), and the expiries of the timers that end orders (chapters 5 to 8). -/

namespace Sys2Proof.Machine

/-! ## Pinch (R91, R92) -/

/-- R92: the reversal target formed from the decision's position `x`. -/
def reversalTarget (r : CalRecord) (lvl : Level) (x : Int) : Int :=
  let free := x + r.rd
  let t := match lvl, softStop r with
    | .endsKnown, some stop => min (stop : Int) (max free r.floor)
    | .learned, some stop => min (stop : Int) (max free r.floor)
    | _, _ => free
  min t 5119

/-- R91, step 4, R130, R132: AUT takes the pinch of an order. -/
def Auth.pinched (o : Order) (a : Auth) : Auth :=
  { a with pinchLevel := o.k, inhibit := a.inhibit || decide (o.origin = .remoteReq) }

/-- R91: a pinch decision reaches MOC; "MOC acts on it only when the channel is CLOSING". -/
def pinch (c : Chan) (r : PinchReason) (load x : Int) (s : State) : State :=
  match (s.ch c).moc.motion, (s.ch c).moc.order with
  | .closing, some o =>
    let target := reversalTarget (s.ch c).cal (s.ch c).level x
    s |> driveOff c
      |> updMoc c (fun k => { k with
          motion := .brakingPinch, order := none, latched := true, revTarget := some target })
      |> noteEnd c o.ownOpen false
      |> postAt .pinch c x (pinchDetail r load)
      |> updAuth c (Auth.pinched o)
      |> reportGroup c o .pinch
      |> reportLearning c o .pinch (s.ch c).hif.pos
  | _, _ => s

/-! ## The stall timer (R51) -/

/-- R51: the reference Rref of the stall timer after a drive-direction step at `x`. -/
def stallReference (k : Channel) (x : Int) : Nat :=
  let learnClosing := match k.moc.order with
    | some o => decide (o.phase = .refClosing)
    | none => false
  if k.moc.motion = .closing ∧ k.level = .learned ∧ learnClosing = false ∧ k.cal.nr ≤ k.moc.steps then
    (reference k.cal x).getD k.cal.pn
  else k.cal.pn

/-- R51: "the length becomes clamp(4 × Rref, 5000, 65000) µs". -/
def stallLength (rref : Nat) : Nat := clampNat 5000 65000 (4 * rref)

/-! ## Ends (R87 to R89, R162) -/

/-- R157: NRM takes the correction of a closed end above level NONE. -/
def takeCorrection (c : Chan) (o : Order) (correction : Int) (s : State) : State :=
  if correction.natAbs ≤ 24 then s
  else if o.phase = .refClosing then
    updLearning c (fun l => { l with mark := some (l.mark.getD .shift) }) s
  else if (s.ch c).level = .learned then
    s |> updCal c (fun r => ({ r with profile := none, adaptations := 0 }).markChanged)
      |> setLevel c .endsKnown 0
  else s

/-- R72: CCS takes the run record of a closing order that ended at a closed end. -/
def takeAdaptation (c : Chan) (o : Order) (correction : Int) (s : State) : State :=
  if qualifies o correction (s.ch c).cal (s.ch c).ctx then
    updCal c (fun r => adaptRecord r (s.ch c).ctx) s
  else s

/-- R87 step 4, R130, R132: AUT takes a closed end. -/
def closedEndAuth (c : Chan) (o : Order) (s : State) : State :=
  s |> clearOverride c
    |> updAuth c (fun a => { a with inhibit := a.inhibit && decide (o.origin ≠ .localReq) })

/-- R156: the highest level the record supports. -/
def supportedLevel (r : CalRecord) : Level :=
  match r.travel, r.profile with
  | none, _ => .closedKnown
  | some _, none => .endsKnown
  | some _, some _ => .learned

/-- R88: a closing stall at level NONE, the closed end found. -/
def closedEndFound (c : Chan) (o : Order) (s : State) : State :=
  s |> setPosition c 0 true
    |> setLevel c (supportedLevel (s.ch c).cal) 0
    |> updMoc c (fun k => { k with latched := false })
    |> endOrderWith c .closedEnd .idle (postAt .endReached c 0 0) (closedEndAuth c o)

/-- R87: a closed end at a level above NONE; the correction is the counter at the expiry. What NRM and
CCS do comes after MOVE_ENDED (log entry 21). -/
def closedEnd (c : Chan) (o : Order) (s : State) : State :=
  let correction := (s.ch c).hif.pos
  s |> setPosition c 0 true
    |> updMoc c (fun k => { k with latched := false })
    |> endOrderWith c .closedEnd .idle
        (fun s =>
          (if 24 < correction.natAbs then postAt .positionCorrected c 0 (signedWord correction) s else s)
            |> postAt .endReached c 0 0)
        (fun s => s |> takeAdaptation c o correction |> takeCorrection c o correction |> closedEndAuth c o)

/-- R162: an opening stall in learning phase OPEN END. -/
def learnOpenEndStall (c : Chan) (s : State) : State :=
  let x := (s.ch c).hif.pos
  if 256 ≤ x ∧ x ≤ 4064 then
    s |> updCal c (fun r =>
          ({ r with travel := some x.toNat, profile := none, adaptations := 0 }).markChanged)
      |> endOrderWith c .openEnd .idle (postAt .endReached c x 1) (setLevel c .endsKnown x)
  else
    s |> updLearning c (fun l => { l with mark := some (l.mark.getD .range) })
      |> endOrder c .obstructed

/-- R89: the order ended OPEN_END "when Lt is present, the level is ENDS_KNOWN or LEARNED, and the
position counter is at or above Lt − 24". -/
def atOpenEnd (k : Channel) : Bool :=
  match k.cal.travel with
  | some t => (k.level = .endsKnown || k.level = .learned) && decide ((t : Int) - 24 ≤ k.hif.pos)
  | none => false

/-- R89: a stall while opening, outside a LEARN OPEN END order. -/
def openingStall (c : Chan) (s : State) : State :=
  if atOpenEnd (s.ch c) then
    endOrderWith c .openEnd .idle (postAt .endReached c (s.ch c).hif.pos 1) id s
  else endOrder c .obstructed s

/-- R86: the outcome of a stall by drive, level and zone. -/
def stallOutcome (c : Chan) (s : State) : State :=
  match (s.ch c).moc.motion, (s.ch c).moc.order with
  | .closing, some o =>
    if (s.ch c).level = .noneKnown then closedEndFound c o s
    else if zoneKindAt (s.ch c).cal.zones (s.ch c).hif.pos = some .seal then closedEnd c o s
    else pinch c .stall 0 (s.ch c).hif.pos s
  | .opening, some o => if o.phase = .openEnd then learnOpenEndStall c s else openingStall c s
  | .reversing, _ => endReversal c .stalled s
  | _, _ => s

/-- R90: the no-step start count after a stall. A count above 3 also faults (log entry 13). -/
def stallExpired (c : Chan) (s : State) : State :=
  if (s.ch c).moc.steps = 0 then
    let n := satSucc 255 (s.ch c).moc.noStep
    let s := updMoc c (fun k => { k with noStep := n }) s
    if 3 ≤ n then enterFault c .noSteps s else stallOutcome c s
  else stallOutcome c s

/-- A deadline has been reached. -/
def due (deadline : Option Nat) (now : Nat) : Bool :=
  match deadline with
  | some d => d ≤ now
  | none => false

/-- What a command answers once its own effect is done: the state with nothing left to be done. -/
def finish (s : State) : Host.Outcome State Fault Refusal := .next (settle s)

/-- STALL (R86, R90): nothing happens while the timer is stopped or not yet due (log entry 2). -/
def execStall (c : Chan) (s : State) : Host.Outcome State Fault Refusal :=
  finish (if due (s.ch c).moc.stall s.clock.now then stallExpired c s else s)

/-! ## Brake expiry (R84, R93) -/

/-- R93: at the brake expiry after a pinch. -/
def startReversal (c : Chan) (s : State) : State :=
  match (s.ch c).moc.revTarget with
  | some t => if t ≤ (s.ch c).hif.pos then reversalAtTarget c s else driveOn c .reversing .opening s
  | none => s

/-- The brake timer of `c` expires: it stops running, and a BRAKING channel goes on (R84), or a
QUEUED channel makes a grant test (R109). -/
def brakeExpired (c : Chan) (s : State) : State :=
  let s := updMoc c (fun k => { k with brakeRunning := false }) s
  match (s.ch c).moc.motion with
  | .brakingOrder => startDrive c s
  | .brakingPinch => startReversal c s
  | .queued => push .grantTest s
  | .idle => s
  | .closing => s
  | .opening => s
  | .reversing => s
  | .waiting => s
  | .fault => s

/-- BRAKE_EXPIRY (R83, R84). -/
def execBrakeExpiry (c : Chan) (s : State) : Host.Outcome State Fault Refusal :=
  finish (if (s.ch c).moc.brakeRunning && due (some (s.ch c).moc.brakeExpiry) s.clock.now then
    brakeExpired c s else s)

/-! ## The spacing timer (R111) and the deadlines -/

/-- The spacing timer is armed, has not run out, and Ts has elapsed. -/
def State.spacingDue (s : State) : Bool :=
  match s.spacing with
  | .armed t false => t + 10000 * s.glob.ts ≤ s.clock.now
  | .armed _ true => false
  | .unarmed => false

/-- R111: the timer runs out, "and that moment is a grant test (R109)". -/
def spacingRunsOut (s : State) : State :=
  match s.spacing with
  | .armed t _ => { s with spacing := .armed t true } |> push .grantTest
  | .unarmed => s

/-- SPACING_TIMER_RUN_OUT (R111). -/
def execSpacingTimerRunOut (s : State) : Host.Outcome State Fault Refusal :=
  finish (if s.spacingDue then spacingRunsOut s else s)

/-- The refresh deadline of the order of `c`, for a MANUAL order. -/
def State.refreshDeadline (s : State) (c : Chan) : Option Nat :=
  match (s.ch c).moc.order with
  | some o => if o.mode = .manual then o.refresh else none
  | none => none

/-- REFRESH_DEADLINE_EXPIRY (R122): the MANUAL order ends RELEASED. -/
def execRefreshDeadlineExpiry (c : Chan) (s : State) : Host.Outcome State Fault Refusal :=
  finish (if due (s.refreshDeadline c) s.clock.now then endOrder c .released s else s)

/-- R153: a waiting leader's order ends COMPANION_BLOCKED, a waiting follower's CLAMPED. -/
def waitExpired (c : Chan) (s : State) : State :=
  match (s.ch c).hold with
  | .leader => endOrder c .companionBlocked s
  | .follower => endOrder c .clamped s
  | .none => s

/-- The wait deadline of `c` while it is WAITING. -/
def State.waitDeadline (s : State) (c : Chan) : Option Nat :=
  if (s.ch c).moc.motion = .waiting then (s.ch c).moc.wait else none

/-- WAIT_DEADLINE_EXPIRY (R153). -/
def execWaitDeadlineExpiry (c : Chan) (s : State) : Host.Outcome State Fault Refusal :=
  finish (if due (s.waitDeadline c) s.clock.now then waitExpired c s else s)

/-- OVERRIDE_WINDOW_EXPIRY (R130): the window closes, the override and pinch levels become 0. -/
def execOverrideWindowExpiry (c : Chan) (s : State) : Host.Outcome State Fault Refusal :=
  finish (if due (s.ch c).auth.window s.clock.now then clearOverride c s else s)

end Sys2Proof.Machine
end

