-- ==== Sys2Proof/Machine/Link.lean ====
section
/-! DEFINITION. The client link interface: frames on the wires (R170), the pipelined reply (R172),
how every request is served, and the requests CLI itself owns (R177, R178, R182). -/

namespace Sys2Proof.Machine

/-! ## Replies (R169, R171, R172) -/

/-- The frame that a reply is: status byte, result code, data, check byte. -/
def replyFrame (status : Byte) (r : Result) (data : Word) : BitVec 40 :=
  sealFrame status (BitVec.ofNat 8 (resultCode r)) (data.extractLsb' 8 8) (data.extractLsb' 0 8)

/-- R172: the frame that link `x` shifts out next. The status byte of the reply that a reset leaves
"is taken at the start of the first frame after the reset". -/
def State.nextReply (s : State) (x : Client) : BitVec 40 :=
  let p := (s.link x).reply
  replyFrame (p.status.getD (s.statusByte x)) p.result p.data

/-- R172: a frame on link `x` has shifted out the pending reply. -/
def shiftReply (x : Client) (s : State) : State := updLink x (fun l => { l with sent := s.nextReply x }) s

/-- R172: the pending reply is replaced; its status byte is taken now, at the frame's completion. -/
def setReply (x : Client) (r : Result) (data : Word) (s : State) : State :=
  updLink x (fun l => { l with reply := ⟨some (s.statusByte x), r, data⟩ }) s

/-- R134, R171: a valid frame of `x` sets its lapse timer, and `x` ceases to be lapsed. -/
def noteValidFrame (x : Client) (s : State) : State :=
  updLink x (fun l => { l with lastFrame := s.clock.now, lapsed := false }) s

/-! ## Serving a request -/

/-- What a request's owner answers: result, data and the state. -/
structure Answer where
  result : Result
  data : Word
  state : State
  deriving DecidableEq, Repr

/-- A refusal: data 0 (R175: "Data that the owner's rule does not name is 0") and nothing changed. -/
def refuse (r : Result) (s : State) : Answer := ⟨r, 0, s⟩

/-- The first failing check of a list, in order (a check that holds is `none`). -/
def firstFailing : List (Option Result) → Option Result
  | [] => none
  | some r :: _ => some r
  | none :: rest => firstFailing rest

/-- A check that fails with `r` when `b` holds. -/
def failsIf (b : Bool) (r : Result) : Option Result := if b then some r else none

/-- Serve the valid frame of `x` whose request is `body`: the pending reply is shifted out, AUT is
told of the frame, the request is executed with all that its action leaves to be done, and its
answer becomes the pending reply. -/
def serve (x : Client) (body : State → Answer) (s : State) : Host.Outcome State Fault Refusal :=
  let a := s |> shiftReply x |> noteValidFrame x |> body
  .next (setReply x a.result a.data (settle a.state))

/-- R175: "Until READY, CLI answers every known request except NOP, IDENTIFY, READ EVENT and POP EVENT
with NOT_READY itself, without routing it." -/
def routed (body : State → Answer) (s : State) : Answer := if s.ready then body s else refuse .notReady s

/-! ## CLI's own requests -/

/-- NOP (R178): DONE with data 0. -/
def execNop (x : Client) (_p _m : BitVec 4) (_a : Word) (s : State) : Host.Outcome State Fault Refusal :=
  serve x (fun s => ⟨.done, 0, s⟩) s

/-- FRAME_ERROR (R171): the frame is discarded, is not reported to AUT, and the pending reply, shifted
out in it, becomes FRAME_ERROR with data 0. -/
def execFrameError (x : Client) (s : State) : Host.Outcome State Fault Refusal :=
  .next (s |> shiftReply x |> setReply x .frameError 0)

/-- UNDEFINED_REQUEST_CODE (R175): "answered BAD_ARGUMENT at all times, and it is still a valid frame". -/
def execUndefinedRequestCode (x : Client) (_code : Byte) (s : State) : Host.Outcome State Fault Refusal :=
  serve x (refuse .badArgument) s

/-- R178: word `n` (0 to 7) of IDENTIFY. -/
def State.identifyWord (s : State) (n : Nat) : Word :=
  match n with
  | 0 => 0x5E86
  | 1 => 0x0003
  | 2 => Config.uniqueNumber.extractLsb' 48 16
  | 3 => Config.uniqueNumber.extractLsb' 32 16
  | 4 => Config.uniqueNumber.extractLsb' 16 16
  | 5 => Config.uniqueNumber.extractLsb' 0 16
  | 6 => 0x0002
  | _ => if s.ready then maskWord s.populatedMask else 0

/-- IDENTIFY (R178). -/
def execIdentify (x : Client) (_p m : BitVec 4) (a : Word) (s : State) : Host.Outcome State Fault Refusal :=
  serve x (fun s =>
    if 8 ≤ m.toNat ∨ a ≠ 0 then refuse .badArgument s else ⟨.done, s.identifyWord m.toNat, s⟩) s

/-- READ PANEL (R177): selector 15 "is answered for any channel number". -/
def readPanel (p m : BitVec 4) (a : Word) (s : State) : Answer :=
  if a ≠ 0 then refuse .badArgument s
  else if m = 15 then ⟨.done, natWord s.sup.reading, s⟩
  else
    match chanOf p with
    | some c => ⟨.done, s.panelField c m.toNat, s⟩
    | none => refuse .badArgument s

/-- READ PANEL (R177). -/
def execReadPanel (x : Client) (p m : BitVec 4) (a : Word) (s : State) : Host.Outcome State Fault Refusal :=
  serve x (routed (readPanel p m a)) s

/-- READ EVENT (R182). -/
def readEvent (x : Client) (m : BitVec 4) (a : Word) (s : State) : Answer :=
  if 5 ≤ m.toNat ∨ a ≠ 0 then refuse .badArgument s
  else if m = 4 then ⟨.done, natWord (s.link x).lost, updLink x (fun l => { l with lost := 0 }) s⟩
  else
    match (s.link x).queue with
    | e :: _ => ⟨.done, eventWord e m.toNat, s⟩
    | [] => refuse .empty s

/-- READ EVENT (R182). -/
def execReadEvent (x : Client) (_p m : BitVec 4) (a : Word) (s : State) : Host.Outcome State Fault Refusal :=
  serve x (readEvent x m a) s

/-- POP EVENT (R182). -/
def popEvent (x : Client) (m : BitVec 4) (a : Word) (s : State) : Answer :=
  if m ≠ 0 ∨ a ≠ 0 then refuse .badArgument s
  else
    match (s.link x).queue with
    | _ :: rest => ⟨.done, natWord rest.length, updLink x (fun l => { l with queue := rest }) s⟩
    | [] => refuse .empty s

/-- POP EVENT (R182). -/
def execPopEvent (x : Client) (_p m : BitVec 4) (a : Word) (s : State) : Host.Outcome State Fault Refusal :=
  serve x (popEvent x m a) s

/-- SET EVENT MASK (R182). -/
def setEventMask (x : Client) (m : BitVec 4) (a : Word) (s : State) : Answer :=
  if m ≠ 0 then refuse .badArgument s else ⟨.done, a, updLink x (fun l => { l with mask := a }) s⟩

/-- SET EVENT MASK (R182). -/
def execSetEventMask (x : Client) (_p m : BitVec 4) (a : Word) (s : State) : Host.Outcome State Fault Refusal :=
  serve x (routed (setEventMask x m a)) s

/-! ## Frames on the wires (R170)

The lines of a link move faster than the model's microsecond. These operations are what its select,
clock and data lines do; at the rising edge of select the completed frame joins the waiting commands
(log entry 20). -/

/-- Select falls: the reply is loaded into the shifter. -/
def selectFalls (x : Client) (s : State) : State :=
  updLink x (fun l => { l with
    shifter := { l.shifter with
      selected := true, clocks := 0, shiftIn := 0, shiftOut := s.nextReply x
      tooSoon := match l.shifter.lastRise with
        | some r => s.clock.now < r + 2
        | none => false } }) s

/-- The level of data out: "most significant bit first"; "During clocks beyond the 40th the device shifts out zeros."
R170 gives its changes at the falling clock edges while select is low, and no level before the first of them or while
select is high: the model shows the reply's first bit from the fall of select, and keeps the span's last level while
select is high (DESIGN CHOICE, log entry 37). -/
def Shifter.dataOut (h : Shifter) : Bool := if h.clocks < 40 then h.shiftOut.getLsbD (39 - h.clocks) else false

/-- R172: the status byte of a reset's reply is the one loaded "at the start of the first frame after the
reset": the first clock makes the span a frame (R170), and the byte stays. -/
def Link.keepStatus (l : Link) : Reply :=
  { l.reply with status := some (l.reply.status.getD (l.shifter.shiftOut.extractLsb' 32 8)) }

/-- R170: a bit shifted in, "most significant bit first". -/
def shiftBit (w : BitVec 40) (b : Bool) : BitVec 40 := (w <<< 1) ||| BitVec.ofNat 40 (bit b)

/-- One clock of a link with data in at `b`; nothing while select is high. -/
def Link.clock (b : Bool) (l : Link) : Link :=
  if l.shifter.selected then
    { l with
      reply := if l.shifter.clocks = 0 then l.keepStatus else l.reply
      shifter := { l.shifter with
        clocks := min 41 (l.shifter.clocks + 1)
        shiftIn := shiftBit l.shifter.shiftIn b } }
  else l

/-- One clock of link `x` with data in at `b` (R170). -/
def clockLink (x : Client) (b : Bool) (s : State) : State := updLink x (Link.clock b) s

/-- R170: the command that the span just completed is; none for a span with no clock edge. -/
def Shifter.frame (x : Client) (h : Shifter) : Option Instr :=
  if h.clocks = 0 then none
  else if h.clocks = 40 ∧ h.tooSoon = false then some (decodeFrame x h.shiftIn)
  else some (.frameError x)

/-- Select rises: the frame is complete and joins the commands that wait. Every rise of select is "the previous
select rise" of the 2 µs gap, also one that ends a span with no clock edge (DEDUCED, log entry 36). -/
def selectRises (x : Client) (s : State) : State :=
  if (s.link x).shifter.selected then
    { updLink x (fun l => { l with
        shifter := { l.shifter with selected := false, lastRise := some s.clock.now } }) s with
      pending := s.pending ++ ((s.link x).shifter.frame x).toList }
  else s

end Sys2Proof.Machine
end

