-- ==== Sys2Proof/Machine/Authority.lean ====
section
/-! DEFINITION. The requests of the authority unit (chapter 7) and PANEL RESTART (R99). -/

namespace Sys2Proof.Machine

/-! ## MOVE (R117, R120, R121) -/

/-- R121: the request is a refresh of the order that `c` holds. -/
def State.isRefresh (s : State) (x : Client) (c : Chan) (d : Dir) (m : Mode) : Bool :=
  match (s.ch c).moc.motion, (s.ch c).moc.order with
  | .fault, _ => false
  | _, some o => m = .manual && o.mode = .manual && o.mover = .client && o.client = x && o.dir = d
  | _, none => false

/-- R121: the refresh deadline moves to 150 ms from now; every other field of the order stands. -/
def refreshOrder (c : Chan) (s : State) : State :=
  updMoc c (fun k => { k with order := k.order.map fun o =>
    { o with refresh := some (s.clock.now + 150000) } }) s

/-- R120: the order of an accepted MOVE. -/
def State.moveOrder (s : State) (x : Client) (c : Chan) (d : Dir) (m : Mode) (org : Origin) (t : Target) :
    Order where
  dir := d
  mode := m
  target := t
  origin := org
  mover := .client
  client := x
  phase := .notLearning
  k := s.overrideFor c d m org
  refresh := if m = .manual then some (s.clock.now + 150000) else none
  accepted := s.clock.ms

/-- R131: a raised close makes the channel's override level its k; any other order leaves it. -/
def noteOverride (c : Chan) (k : Nat) (s : State) : State :=
  if k = 0 then s else updAuth c (fun a => { a with overrideLevel := k }) s

/-- R117, checks 2 to 10, and R121 for a MOVE on populated channel `c`. -/
def judgeMove (x : Client) (c : Chan) (d : Dir) (m : Mode) (org : Origin) (t : Target) (s : State) : Answer :=
  if !s.mayAct x c || !s.hasRight x .move then refuse .notPermitted s
  else
    match s.refusalBeforeBusy x c d m org with
    | some r => refuse r s
    | none =>
      if s.isRefresh x c d m then
        ⟨.accepted, ((s.ch c).moc.order.map fun o => targetWord o.target).getD 0, refreshOrder c s⟩
      else if s.busyFor x c d then refuse .busy s
      else
        let o := s.moveOrder x c d m org t
        ⟨.accepted, targetWord (s.normalized c o).target, s |> noteOverride c o.k |> handOver c o⟩

/-- R117: MOVE. -/
def moveRequest (x : Client) (p m : BitVec 4) (a : Word) (s : State) : Answer :=
  match chanOf p, moveModifier m, targetOf a with
  | some c, some (d, md, org), some t =>
    if s.populated c then judgeMove x c d md org t s else refuse .badArgument s
  | _, _, _ => refuse .badArgument s

/-- MOVE (R117 to R121). -/
def execMove (x : Client) (p m : BitVec 4) (a : Word) (s : State) : Host.Outcome State Fault Refusal :=
  serve x (routed (moveRequest x p m a)) s

/-! ## Requests that name a channel or panel 15 -/

/-- R116: "every populated channel of the client's panel mask". -/
def State.panelChans (s : State) (x : Client) : List Chan :=
  allChans.filter fun c => s.populated c && s.mayAct x c

/-- The channel is in FAULT. -/
def State.inFault (s : State) (c : Chan) : Bool := (s.ch c).moc.motion = .fault

/-! ## HALT (R123) -/

/-- R123, checks 3 to 5. -/
def State.haltRefusal (s : State) (x : Client) (c : Chan) : Option Result :=
  firstFailing [failsIf (s.lockedOut x c) .lockedOut, failsIf (s.inFault c || !s.ready) .notReady,
    failsIf (s.inReversal c) .busy]

/-- R123: an order the channel holds ends HALTED. -/
def haltChannel (s : State) (c : Chan) : State := endOrder c .halted s

/-- R123. -/
def haltRequest (x : Client) (p m : BitVec 4) (a : Word) (s : State) : Answer :=
  if m ≠ 0 ∨ a ≠ 0 then refuse .badArgument s
  else if isPanel15 p then
    if s.hasRight x .move then
      let cs := (s.panelChans x).filter fun c => (s.haltRefusal x c).isNone
      ⟨.done, natWord (cs.filter s.hasOrder).length, cs.foldl haltChannel s⟩
    else refuse .notPermitted s
  else
    match chanOf p with
    | none => refuse .badArgument s
    | some c =>
      match firstFailing [failsIf (!s.populated c) .badArgument,
          failsIf (!s.mayAct x c || !s.hasRight x .move) .notPermitted, s.haltRefusal x c] with
      | some r => refuse r s
      | none => ⟨.done, natWord (bit (s.hasOrder c)), haltChannel s c⟩

/-- HALT (R123). -/
def execHalt (x : Client) (p m : BitVec 4) (a : Word) (s : State) : Host.Outcome State Fault Refusal :=
  serve x (routed (haltRequest x p m a)) s

/-! ## Stop claims (R124, R126) -/

/-- R124: the channel is stopped, its order CLAIMED or its reversal REV_CLAIMED. -/
def stopForClaim (c : Chan) (s : State) : State :=
  if s.inReversal c then endReversal c .claimed s else endOrder c .claimed s

/-- R124, R125: the channel is stopped and the claim of `x` stands. -/
def claimChannel (x : Client) (s : State) (c : Chan) : State :=
  s |> stopForClaim c |> updAuth c (fun k => { k with claims := addClient k.claims x })

/-- R124. -/
def stopClaimRequest (x : Client) (p m : BitVec 4) (a : Word) (s : State) : Answer :=
  if m ≠ 0 ∨ a ≠ 0 then refuse .badArgument s
  else if isPanel15 p then
    if s.hasRight x .claim then
      let cs := (s.panelChans x).filter fun c => !s.inFault c
      ⟨.done, natWord cs.length, cs.foldl (claimChannel x) s⟩
    else refuse .notPermitted s
  else
    match chanOf p with
    | none => refuse .badArgument s
    | some c =>
      match firstFailing [failsIf (!s.populated c) .badArgument,
          failsIf (!s.hasRight x .claim || !s.mayAct x c) .notPermitted,
          failsIf (s.inFault c || !s.ready) .notReady] with
      | some r => refuse r s
      | none => ⟨.done, natWord (clientCount (addClient (s.ch c).auth.claims x)), claimChannel x s c⟩

/-- STOP CLAIM (R124). -/
def execStopClaim (x : Client) (p m : BitVec 4) (a : Word) (s : State) : Host.Outcome State Fault Refusal :=
  serve x (routed (stopClaimRequest x p m a)) s

/-- R126: the claim of `x` on the channel is cleared. -/
def releaseClaim (x : Client) (s : State) (c : Chan) : State :=
  updAuth c (fun k => { k with claims := dropClient k.claims x }) s

/-- How many channels any claim stands on. -/
def State.claimedCount (s : State) : Nat := (allChans.filter fun c => (s.ch c).auth.claims ≠ 0).length

/-- R126: "An unpopulated channel may be named." -/
def stopReleaseRequest (x : Client) (p m : BitVec 4) (a : Word) (s : State) : Answer :=
  if m ≠ 0 ∨ a ≠ 0 then refuse .badArgument s
  else if isPanel15 p then
    let s' := (allChans.filter fun c => !s.inFault c).foldl (releaseClaim x) s
    ⟨.done, natWord s'.claimedCount, s'⟩
  else
    match chanOf p with
    | none => refuse .badArgument s
    | some c =>
      if s.inFault c || !s.ready then refuse .notReady s
      else ⟨.done, natWord (clientCount (dropClient (s.ch c).auth.claims x)), releaseClaim x s c⟩

/-- STOP RELEASE (R126). -/
def execStopRelease (x : Client) (p m : BitVec 4) (a : Word) (s : State) : Host.Outcome State Fault Refusal :=
  serve x (routed (stopReleaseRequest x p m a)) s

/-! ## Lockouts (R127, R129) -/

/-- The channels on which `x` holds a lockout, as a mask. -/
def State.lockoutMask (s : State) (x : Client) : BitVec 8 :=
  maskWhere fun c => hasClient (s.ch c).auth.lockouts x

/-- R127: the lockout of `x` becomes held, and an order of another client's ends LOCKED_OUT. -/
def lockChannel (x : Client) (s : State) (c : Chan) : State :=
  let s := updAuth c (fun k => { k with lockouts := addClient k.lockouts x }) s
  match (s.ch c).moc.order with
  | some o => if o.client = x then s else endOrder c .lockedOut s
  | none => s

/-- R127. -/
def lockoutSetRequest (x : Client) (p m : BitVec 4) (a : Word) (s : State) : Answer :=
  match panelMask a with
  | none => refuse .badArgument s
  | some mask =>
    let cs := maskChans mask
    match firstFailing [
        failsIf (!isPanel15 p || decide (m ≠ 0) || decide (mask = 0) || cs.any fun c => !s.populated c) .badArgument,
        failsIf (!s.hasRight x .lockout || cs.any fun c => !s.mayAct x c) .notPermitted,
        failsIf (cs.any (s.lockedOut x)) .lockedOut, failsIf (!s.ready) .notReady] with
    | some r => refuse r s
    | none =>
      let s' := cs.foldl (lockChannel x) s
      ⟨.done, maskWord (s'.lockoutMask x), s'⟩

/-- LOCKOUT SET (R127). -/
def execLockoutSet (x : Client) (p m : BitVec 4) (a : Word) (s : State) : Host.Outcome State Fault Refusal :=
  serve x (routed (lockoutSetRequest x p m a)) s

/-- R129: the lockout of `x` on the channel is cleared. -/
def unlockChannel (x : Client) (s : State) (c : Chan) : State :=
  updAuth c (fun k => { k with lockouts := dropClient k.lockouts x }) s

/-- R129. -/
def lockoutClearRequest (x : Client) (p m : BitVec 4) (a : Word) (s : State) : Answer :=
  match panelMask a with
  | none => refuse .badArgument s
  | some mask =>
    match firstFailing [failsIf (!isPanel15 p || decide (m ≠ 0)) .badArgument, failsIf (!s.ready) .notReady] with
    | some r => refuse r s
    | none =>
      let s' := (maskChans mask).foldl (unlockChannel x) s
      ⟨.done, maskWord (s'.lockoutMask x), s'⟩

/-- LOCKOUT CLEAR (R129). -/
def execLockoutClear (x : Client) (p m : BitVec 4) (a : Word) (s : State) : Host.Outcome State Fault Refusal :=
  serve x (routed (lockoutClearRequest x p m a)) s

/-! ## ACK REVERSAL (R133) -/

/-- R133, R96: the reversal-latched flag of the channel is cleared. -/
def ackChannel (s : State) (c : Chan) : State := updMoc c (fun k => { k with latched := false }) s

/-- The reversal-latched flag of the channel. -/
def State.latched (s : State) (c : Chan) : Bool := (s.ch c).moc.latched

/-- R133. -/
def ackReversalRequest (x : Client) (p m : BitVec 4) (a : Word) (s : State) : Answer :=
  if m ≠ 0 ∨ a ≠ 0 then refuse .badArgument s
  else if isPanel15 p then
    let cs := (s.panelChans x).filter fun c => !s.inFault c
    ⟨.done, natWord (cs.filter s.latched).length, cs.foldl ackChannel s⟩
  else
    match chanOf p with
    | none => refuse .badArgument s
    | some c =>
      match firstFailing [failsIf (!s.populated c) .badArgument, failsIf (s.inFault c || !s.ready) .notReady] with
      | some r => refuse r s
      | none => ⟨.done, natWord (bit (s.latched c)), ackChannel s c⟩

/-- ACK REVERSAL (R133). -/
def execAckReversal (x : Client) (p m : BitVec 4) (a : Word) (s : State) : Host.Outcome State Fault Refusal :=
  serve x (routed (ackReversalRequest x p m a)) s

/-! ## PANEL RESTART (R99) -/

/-- R99: what HIF (R17), LDE (R28), AUT (R115) and MOC's flags (step 5) take at a restart. -/
def clearForRestart (c : Chan) (s : State) : State :=
  s |> setPosition c 0 false
    |> updHif c Hif.restart
    |> updCtx c (fun _ => resetContext)
    |> dropTake c
    |> clearOverride c
    |> updMoc c (fun k => { k with latched := false, noStep := 0, fault := none })

/-- R99: MOC's steps 1 to 4 and 6; `after` is what the other blocks do in the same action. The events
carry the counter as it was (log entry 22). -/
def restartMotion (c : Chan) (after : State → State) (s : State) : State :=
  if s.inReversal c then s |> endReversalTo c .restart .idle |> after
  else if s.hasOrder c then endOrderWith c .restart .idle id after s
  else s |> updMoc c (fun k => { k with motion := .idle }) |> after

/-- R99: restart one channel. An order that the channel holds ends before the level drops (R118); with none,
which of NRM (LEVEL_CHANGED, R158) and MOC posts first is open (R180, log entry 6). -/
def restartChannel (s : State) (c : Chan) : State :=
  let lowered := restartMotion c fun s => s |> clearForRestart c |> setLevel c .noneKnown 0
  if s.hasOrder c then lowered s
  else
    match drawPostsFirst s with
    | (true, s) => s |> setLevel c .noneKnown 0 |> restartMotion c (clearForRestart c)
    | (false, s) => lowered s

/-- R99. -/
def panelRestartRequest (x : Client) (p m : BitVec 4) (a : Word) (s : State) : Answer :=
  if m ≠ 0 ∨ a ≠ 0 then refuse .badArgument s
  else if isPanel15 p then
    let own := s.panelChans x
    let cs := own.filter fun c => !s.lockedOut x c
    if !s.hasRight x .move || own.isEmpty then refuse .notPermitted s
    else if cs.isEmpty then refuse .lockedOut s
    else ⟨.done, 0, cs.foldl restartChannel s⟩
  else
    match chanOf p with
    | none => refuse .badArgument s
    | some c =>
      match firstFailing [failsIf (!s.populated c) .badArgument,
          failsIf (!s.mayAct x c || !s.hasRight x .move) .notPermitted,
          failsIf (s.lockedOut x c) .lockedOut, failsIf (!s.ready) .notReady] with
      | some r => refuse r s
      | none => ⟨.done, 0, restartChannel s c⟩

/-- PANEL RESTART (R99). -/
def execPanelRestart (x : Client) (p m : BitVec 4) (a : Word) (s : State) : Host.Outcome State Fault Refusal :=
  serve x (routed (panelRestartRequest x p m a)) s

/-! ## Client lapse (R134, R135) -/

/-- R70: the staging buffer is emptied and has no owner. -/
def discardStaging (s : State) : State := { s with staging := emptyStaging }

/-- R135: the claims and lockouts of `x` on the channel are cleared. -/
def lapseChannel (x : Client) (s : State) (c : Chan) : State :=
  updAuth c (fun k => { k with claims := dropClient k.claims x, lockouts := dropClient k.lockouts x }) s

/-- R135: client `x` becomes lapsed. -/
def lapse (x : Client) (s : State) : State :=
  let s := updLink x (fun l => { l with lapsed := true }) s
  let s := allChans.foldl (lapseChannel x) s
  let s := if s.staging.owner = some x then discardStaging s else s
  post .clientLapse none 0 (natWord x.val) s

/-- R134: 1000 ms have passed since the last valid frame of a client that is not lapsed. -/
def State.lapseDue (s : State) (x : Client) : Bool :=
  !(s.link x).lapsed && decide ((s.link x).lastFrame + 1000000 ≤ s.clock.now)

/-- LAPSE_TIMER_EXPIRY (R134, R135). -/
def execLapseTimerExpiry (x : Client) (s : State) : Host.Outcome State Fault Refusal :=
  finish (if s.lapseDue x then lapse x s else s)

end Sys2Proof.Machine
end

