-- ==== Sys2Proof/Machine/Calib.lean ====
section
/-! DEFINITION. The requests of the calibration store (chapter 4): SET PARAMETER, READ PARAMETER, READ
PROFILE and the ZONE requests. -/

namespace Sys2Proof.Machine

/-! ## Selectors of a channel record (section 4.5) -/

/-- R60: the value that selector `n` of a channel record reads. -/
def CalRecord.param (r : CalRecord) (n : Nat) : Word :=
  match n with
  | 0 => natWord (bit r.populated)
  | 1 => natWord r.nr
  | 2 => natWord r.ru
  | 3 => natWord r.pn
  | 4 => natWord r.rd
  | 5 => natWord r.floor
  | 6 => natWord r.ms
  | 7 => natWord r.jolt
  | 8 => natWord r.bn
  | 9 => natWord r.brake
  | 10 => natWord (bit (r.polarity = .activeLow))
  | 11 => natWord ((r.companion.map Fin.val).getD 15)
  | 12 => natWord r.gate
  | 13 => natWord r.requirement
  | 14 => natWord (r.travel.getD 0)
  | _ => natWord r.adaptations

/-- The record with the field of selector `n` (1 to 13) at value `v`. -/
def CalRecord.withParam (n v : Nat) (r : CalRecord) : CalRecord :=
  match n with
  | 1 => { r with nr := v }
  | 2 => { r with ru := v }
  | 3 => { r with pn := v }
  | 4 => { r with rd := v }
  | 5 => { r with floor := v }
  | 6 => { r with ms := v }
  | 7 => { r with jolt := v }
  | 8 => { r with bn := v }
  | 9 => { r with brake := v }
  | 10 => { r with polarity := if v = 1 then .activeLow else .activeHigh }
  | 11 => { r with companion := if h : v < 8 then some ⟨v, h⟩ else none }
  | 12 => { r with gate := v }
  | 13 => { r with requirement := v }
  | _ => r

/-- R59: "When the written value differs from the value held before, the record is marked unsaved". -/
def CalRecord.setParam (n v : Nat) (r : CalRecord) : CalRecord :=
  if r.withParam n v = r then r else (r.withParam n v).markChanged

/-- Another channel names `p` as its companion (R61, R62). -/
def State.isNamed (s : State) (p : Chan) : Bool := (s.leadersOf p).any (· ≠ p)

/-- R61: the companion value `v` of channel `p` is admitted. -/
def State.companionOk (s : State) (p : Chan) (v : Nat) : Bool :=
  if h : v < 8 then
    let c : Chan := ⟨v, h⟩
    decide (c ≠ p) && s.populated c && (s.ch c).cal.companion.isNone && !s.isNamed p
  else v = 15

/-- R62: the populated flag of `p` may become `b`. -/
def State.populatedOk (s : State) (p : Chan) (b : Bool) : Bool :=
  b || ((s.ch p).cal.companion.isNone && !s.isNamed p)

/-- R59, check 6: the value of selector `n` (0 to 13) is within its range, and R61 and R62 hold. -/
def State.paramOk (s : State) (c : Chan) (n v : Nat) : Bool :=
  match n with
  | 0 => v = 0 && s.populatedOk c false || v = 1
  | 1 => 4 ≤ v && v ≤ 64
  | 2 => 500 ≤ v && v ≤ 65000
  | 3 => 200 ≤ v && v ≤ 30000
  | 4 => 16 ≤ v && v ≤ 4064
  | 5 => v ≤ 4064
  | 6 => v ≤ 64
  | 7 => 16 ≤ v && v ≤ 1024
  | 8 => v ≤ 32
  | 9 => 1 ≤ v && v ≤ 16
  | 10 => v ≤ 1
  | 11 => s.companionOk c v
  | 12 => v ≤ 4064
  | 13 => v ≤ 4064
  | _ => false

/-- R59, check 5: the channel is IDLE or FAULT. -/
def State.atRest (s : State) (c : Chan) : Bool :=
  decide ((s.ch c).moc.motion = .idle) || decide ((s.ch c).moc.motion = .fault)

/-- R15, R62: the channel's populated flag has changed: HIF is cleared or restarts its acquisition,
the level is NONE (no event, R158), the motion IDLE and a FAULT reason is cleared; what else stands is
log entry 31. -/
def applyPopulated (c : Chan) (s : State) : State :=
  s |> setPosition c 0 false
    |> updHif c Hif.restart
    |> updChan c (fun k => { k with level := .noneKnown })
    |> updMoc c (fun k => { k with motion := .idle, fault := none })

/-- R62: write the populated flag of `c`; the value already held changes nothing. -/
def setPopulated (c : Chan) (b : Bool) (s : State) : State :=
  if s.populated c = b then s
  else s |> updCal c (fun r => ({ r with populated := b }).markChanged) |> applyPopulated c

/-- R152: "each write of R145" is a test of every waiting follower. -/
def testFollowers (s : State) : State := allChans.foldl (fun s c => push (.followerTest c) s) s

/-- R144: the companion link that a record forms: the follower, G and Q; none without a companion, when G
and Q "have no effect" (R61). -/
def CalRecord.companionLink (r : CalRecord) : Option (Chan × Nat × Nat) :=
  r.companion.map fun c => (c, r.gate, r.requirement)

/-- R59 at DONE for a channel record. R145: "A link is formed or removed, and G or Q of a leader is
changed": such a write tests the waiting followers; a write that leaves the link as it was is none
(log entry 34). -/
def writeChannelParam (c : Chan) (n v : Nat) (s : State) : State :=
  if n = 0 then setPopulated c (v = 1) s
  else
    let s' := updCal c (CalRecord.setParam n v) s
    if (s'.ch c).cal.companionLink ≠ (s.ch c).cal.companionLink then testFollowers s' else s'

/-- Check 2 of R59 and R64: the client holds CALIBRATE. -/
def State.rightRefusal (s : State) (x : Client) : Option Result :=
  failsIf (!s.hasRight x .calibrate) .notPermitted

/-- Checks 3 and 4 of R59 and R64: calibration is unlocked and loaded, and no CAL ERASE is in progress. -/
def State.calStateRefusal (s : State) : Option Result :=
  firstFailing [failsIf s.glob.locked .calLocked, failsIf (!s.calLoaded || s.erasing) .notReady]

/-- R59, checks 2 to 4, shared by every selector. -/
def State.calibRefusal (s : State) (x : Client) : Option Result :=
  firstFailing [s.rightRefusal x, s.calStateRefusal]

/-- R59 for a channel. -/
def setChannelParam (x : Client) (c : Chan) (n v : Nat) (s : State) : Answer :=
  match firstFailing [failsIf (decide (14 ≤ n) || (!s.populated c && decide (n ≠ 0))) .badArgument,
      s.calibRefusal x, failsIf (!s.atRest c) .busy, failsIf (!s.paramOk c n v) .badArgument] with
  | some r => refuse r s
  | none =>
    let s' := writeChannelParam c n v s
    ⟨.done, (s'.ch c).cal.param n, s'⟩

/-! ## Selectors of the global record (section 4.5) -/

/-- The client whose rights selector 3 to 6 names. -/
def rightsClient (n : Nat) : Client := Fin.ofNat 4 (n - 3)

/-- R60: the value that selector `n` (0 to 8) of the global record reads. -/
def State.globalParam (s : State) (n : Nat) : Word :=
  match n with
  | 0 => natWord s.glob.ns
  | 1 => natWord s.glob.ts
  | 2 => maskWord s.populatedMask
  | 7 => natWord (bit s.glob.locked)
  | 8 => natWord (bit s.glob.unsaved)
  | n => rightsWord (s.rights (rightsClient n))

/-- R63: the channels whose populated flag the mask changes. -/
def State.changedBy (s : State) (mask : BitVec 8) : List Chan :=
  allChans.filter fun c => s.populated c ≠ inMask mask c

/-- R63: the state check of a global selector fails. -/
def State.globalBusy (s : State) (n : Nat) (a : Word) : Bool :=
  match n with
  | 0 => allChans.any fun c => !s.atRest c
  | 2 => (s.changedBy (a.extractLsb' 0 8)).any fun c => !s.atRest c
  | _ => false

/-- R63, R176: the value of global selector `n` is within its range, and R62 and the rule on client
3's CALIBRATE hold. -/
def State.globalOk (s : State) (n : Nat) (a : Word) : Bool :=
  match n with
  | 0 => 1 ≤ a.toNat && a.toNat ≤ 4
  | 1 => 2 ≤ a.toNat && a.toNat ≤ 20
  | 2 =>
    match panelMask a with
    | some mask => (s.changedBy mask).all fun c => s.populatedOk c (inMask mask c)
    | none => false
  | n =>
    match rightsOf a with
    | some r => !(n = 6) || r.rights.getLsbD (rightBit .calibrate)
    | none => false

/-- A global record written: marked unsaved when the value changed (R63). -/
def setGlobal (f : GlobalRecord → GlobalRecord) (s : State) : State :=
  updGlobal (fun g => if f g = g then g else (f g).markChanged) s

/-- R63, R109, R111: a write of Ts is a grant test; the spacing is measured against the new Ts (log
entry 30). -/
def retimeSpacing (s : State) : State :=
  { s with spacing := match s.spacing with
      | .armed t _ => .armed t (t + 10000 * s.glob.ts ≤ s.clock.now)
      | .unarmed => .unarmed } |> push .grantTest

/-- R63 at DONE. -/
def writeGlobalParam (n : Nat) (a : Word) (s : State) : State :=
  match n with
  | 0 => setGlobal (fun g => { g with ns := a.toNat }) s
  | 1 => s |> setGlobal (fun g => { g with ts := a.toNat }) |> retimeSpacing
  | 2 => allChans.foldl (fun s c => setPopulated c (inMask (a.extractLsb' 0 8) c) s) s
  | n =>
    match rightsOf a with
    | some r => setGlobal (fun g => { g with rights := g.rights.set (rightsClient n) r }) s
    | none => s

/-- R59, R63 for the global record. -/
def setGlobalParam (x : Client) (n : Nat) (a : Word) (s : State) : Answer :=
  match firstFailing [failsIf (decide (7 ≤ n)) .badArgument, s.calibRefusal x,
      failsIf (s.globalBusy n a) .busy, failsIf (!s.globalOk n a) .badArgument] with
  | some r => refuse r s
  | none =>
    let s' := writeGlobalParam n a s
    ⟨.done, s'.globalParam n, s'⟩

/-- R59. -/
def setParameterRequest (x : Client) (p m : BitVec 4) (a : Word) (s : State) : Answer :=
  if isPanel15 p then setGlobalParam x m.toNat a s
  else
    match chanOf p with
    | some c => setChannelParam x c m.toNat a.toNat s
    | none => refuse .badArgument s

/-- SET PARAMETER (R59, R61 to R63). -/
def execSetParameter (x : Client) (p m : BitVec 4) (a : Word) (s : State) : Host.Outcome State Fault Refusal :=
  serve x (routed (setParameterRequest x p m a)) s

/-- R60. -/
def readParameterRequest (p m : BitVec 4) (a : Word) (s : State) : Answer :=
  if a ≠ 0 then refuse .badArgument s
  else if isPanel15 p then
    if 9 ≤ m.toNat then refuse .badArgument s else ⟨.done, s.globalParam m.toNat, s⟩
  else
    match chanOf p with
    | some c => ⟨.done, (s.ch c).cal.param m.toNat, s⟩
    | none => refuse .badArgument s

/-- READ PARAMETER (R60). -/
def execReadParameter (x : Client) (p m : BitVec 4) (a : Word) (s : State) : Host.Outcome State Fault Refusal :=
  serve x (routed (readParameterRequest p m a)) s

/-! ## READ PROFILE (R71) -/

/-- R71: the value that modifier `n` (1 to 5) reads of a zone record. -/
def Zone.field (z : Zone) (n : Nat) : Nat :=
  match n with
  | 1 => z.start
  | 2 => zoneKindCode z.kind
  | 3 => z.t
  | 4 => z.e
  | _ => z.h

/-- R71 for a populated channel with record `r`. -/
def readProfile (r : CalRecord) (n i : Nat) (s : State) : Answer :=
  match n with
  | 0 =>
    match r.profile with
    | none => refuse .empty s
    | some bands =>
      match bands[i]? with
      | some b => ⟨.done, natWord b, s⟩
      | none => refuse .badArgument s
  | 6 => ⟨.done, bytesWord r.zones.length ((r.travel.map bandTotal).getD 0), s⟩
  | n =>
    if 7 ≤ n then refuse .badArgument s
    else
      match r.zones[i]? with
      | some z => ⟨.done, natWord (z.field n), s⟩
      | none => refuse .badArgument s

/-- R71. -/
def readProfileRequest (p m : BitVec 4) (a : Word) (s : State) : Answer :=
  match chanOf p with
  | some c => if s.populated c then readProfile (s.ch c).cal m.toNat a.toNat s else refuse .badArgument s
  | none => refuse .badArgument s

/-- READ PROFILE (R71). -/
def execReadProfile (x : Client) (p m : BitVec 4) (a : Word) (s : State) : Host.Outcome State Fault Refusal :=
  serve x (routed (readProfileRequest p m a)) s

/-! ## The ZONE requests (section 4.6) -/

/-- R64: the checks that every ZONE request meets first; `malformed` is its own part of check 1. ZONE ABANDON meets
check 2 too: R64 and R70 say so, and R116's table leaves the ZONE requests to their own chapter, against R116's closing
sentences (DESIGN CHOICE, log entry 32). -/
def State.zoneRefusal (s : State) (x : Client) (c : Chan) (malformed : Bool) : Option Result :=
  firstFailing [failsIf (!s.populated c || malformed) .badArgument, s.rightRefusal x, s.calStateRefusal,
    failsIf (decide (s.staging.owner ≠ none ∧ s.staging.owner ≠ some x)) .busy]

/-- A ZONE request of client `x` on channel field `p`, after the checks of R64. -/
def zoneRequest (x : Client) (p : BitVec 4) (malformed : Bool) (body : Chan → State → Answer) (s : State) : Answer :=
  match chanOf p with
  | none => refuse .badArgument s
  | some c =>
    match s.zoneRefusal x c malformed with
    | some r => refuse r s
    | none => body c s

/-- R66: the requester owns the buffer, bound to the channel named. -/
def State.ownsStaging (s : State) (x : Client) (c : Chan) : Bool :=
  decide (s.staging.owner = some x) && decide (s.staging.bound = c)

/-- R65. -/
def zoneBegin (x : Client) (c : Chan) (s : State) : Answer :=
  ⟨.done, 0, { s with staging := ⟨some x, c, []⟩ }⟩

/-- ZONE BEGIN (R64, R65). -/
def execZoneBegin (x : Client) (p m : BitVec 4) (a : Word) (s : State) : Host.Outcome State Fault Refusal :=
  serve x (routed (zoneRequest x p (decide (m ≠ 0) || decide (a ≠ 0)) (zoneBegin x))) s

/-- R67: a new record: the last staged record's values, or GUARD 80 600 400 in an empty buffer. -/
def newZone (records : List Zone) (start : Nat) : Zone :=
  match records.getLast? with
  | some z => { z with start := start }
  | none => ⟨start, .guard, 80, 600, 400⟩

/-- R66, R67; a start above 4063 is judged after the checks of R64 (log entry 15). -/
def zonePutStart (x : Client) (start : Nat) (c : Chan) (s : State) : Answer :=
  let r := s.staging.records
  if s.ownsStaging x c = false ∨ 4063 < start ∨ 6 ≤ r.length then refuse .badArgument s
  else ⟨.done, natWord (r.length + 1), { s with staging := { s.staging with records := r ++ [newZone r start] } }⟩

/-- ZONE PUT START (R64, R66, R67). -/
def execZonePutStart (x : Client) (p m : BitVec 4) (a : Word) (s : State) : Host.Outcome State Fault Refusal :=
  serve x (routed (zoneRequest x p (decide (m ≠ 0)) (zonePutStart x a.toNat))) s

/-- R68: the record with field `n` (0 kind, 1 T, 2 E, 3 H) set; none for a kind value above 2. -/
def Zone.put (z : Zone) (n : Nat) (a : Word) : Option Zone :=
  match n with
  | 0 => (zoneKindOf a).map fun k => { z with kind := k }
  | 1 => some { z with t := a.toNat }
  | 2 => some { z with e := a.toNat }
  | _ => some { z with h := a.toNat }

/-- R66, R68; a kind value above 2 is judged after the checks of R64 (log entry 15). -/
def zonePutField (x : Client) (n : Nat) (a : Word) (c : Chan) (s : State) : Answer :=
  if s.ownsStaging x c then
    match s.staging.records.getLast?.bind (Zone.put · n a) with
    | some z =>
      ⟨.done, a, { s with staging := { s.staging with records := s.staging.records.dropLast ++ [z] } }⟩
    | none => refuse .badArgument s
  else refuse .badArgument s

/-- ZONE PUT FIELD (R64, R66, R68); a modifier of 4 or above is malformed (log entry 15). -/
def execZonePutField (x : Client) (p m : BitVec 4) (a : Word) (s : State) : Host.Outcome State Fault Refusal :=
  serve x (routed (zoneRequest x p (decide (4 ≤ m.toNat)) (zonePutField x m.toNat a))) s

/-- R66, R69. -/
def zoneCommit (x : Client) (c : Chan) (s : State) : Answer :=
  let r := s.staging.records
  if s.ownsStaging x c && zonesValid r then
    ⟨.done, natWord r.length,
      { updCal c (fun k => ({ k with zones := r }).markChanged) s with staging := emptyStaging }⟩
  else refuse .badArgument s

/-- ZONE COMMIT (R64, R66, R69). -/
def execZoneCommit (x : Client) (p m : BitVec 4) (a : Word) (s : State) : Host.Outcome State Fault Refusal :=
  serve x (routed (zoneRequest x p (decide (m ≠ 0) || decide (a ≠ 0)) (zoneCommit x))) s

/-- R66, R70. -/
def zoneAbandon (x : Client) (c : Chan) (s : State) : Answer :=
  if s.staging.owner = none then ⟨.done, 0, s⟩
  else if s.ownsStaging x c then ⟨.done, 0, { s with staging := emptyStaging }⟩
  else refuse .badArgument s

/-- ZONE ABANDON (R64, R66, R70); that it needs CALIBRATE as the other ZONE requests do is log entry 32. -/
def execZoneAbandon (x : Client) (p m : BitVec 4) (a : Word) (s : State) : Host.Outcome State Fault Refusal :=
  serve x (routed (zoneRequest x p (decide (m ≠ 0) || decide (a ≠ 0)) (zoneAbandon x))) s

end Sys2Proof.Machine
end

