-- ==== Sys2Proof/Machine/Group.lean ====
section
/-! DEFINITION. The requests of the group unit: GROUP MOVE (R138, R139), GROUP CANCEL (R142) and READ
GROUP (R143). -/

namespace Sys2Proof.Machine

/-! ## GROUP MOVE -/

/-- R137: "the free entry with the lowest index". -/
def State.freeEntry (s : State) : Option (Fin 4) := [0, 1, 2, 3].find? fun g => (s.group g).isNone

/-- R137: the serial counter raised by 1, "from 255 to 1, so that 0 is passed over". -/
def nextSerial (n : Nat) : Nat := if 255 ≤ n then 1 else n + 1

/-- R139: the order of a member. -/
def memberOrder (g : Fin 4) (x : Client) (d : Dir) (org : Origin) (accepted : Word) : Order where
  dir := d
  mode := .auto
  target := .toEnd
  origin := org
  mover := .group g
  client := x
  phase := .notLearning
  k := 0
  refresh := none
  accepted := accepted

/-- R139: check 2 with GROUP standing for MOVE, then checks 3 to 9 of R117. -/
def State.memberRefusal (s : State) (x : Client) (d : Dir) (org : Origin) (c : Chan) : Option Result :=
  if !s.mayAct x c then some .notPermitted else s.refusal x c d .auto org

/-- Record SKIPPED for a refused member. -/
def skipMember (g : Fin 4) (c : Chan) (r : Result) (s : State) : State :=
  match s.group g with
  | some e => setGroup g (some { e with members := e.members.set c (some (.skipped r)) }) s
  | none => s

/-- What the admission of a group's members has come to: the state, the first refusal, whether any
member was admitted. -/
structure Admission where
  state : State
  refusal : Option Result
  admitted : Bool
  deriving DecidableEq, Repr

/-- R139: judge the next member and install it at once if it is admitted. -/
def admitMember (g : Fin 4) (x : Client) (d : Dir) (org : Origin) (m : Admission) (c : Chan) : Admission :=
  match m.state.memberRefusal x d org c with
  | some r => ⟨skipMember g c r m.state, some (m.refusal.getD r), m.admitted⟩
  | none =>
    ⟨settle (handOver c (memberOrder g x d org m.state.clock.ms) m.state), m.refusal, true⟩

/-- R137: entry `g` taken for these members, none of them judged yet. -/
def takeEntry (g : Fin 4) (x : Client) (d : Dir) (org : Origin) (cs : List Chan) (s : State) : State :=
  let n := nextSerial s.serial
  { s with serial := n } |> setGroup g (some
    ⟨n, x, d, org, cs.foldl (fun (v : Vector (Option MemberOutcome) 8) (c : Chan) => v.set c (some .toJudge))
      (Vector.replicate 8 none)⟩)

/-- R139: take the members `cs` into entry `g`; with none admitted "the table and the serial counter
are left as they stand". -/
def admitMembers (g : Fin 4) (x : Client) (d : Dir) (org : Origin) (cs : List Chan) (s : State) : Answer :=
  let m := cs.foldl (admitMember g x d org) ⟨takeEntry g x d org cs s, none, false⟩
  if m.admitted then ⟨.accepted, bytesWord g.val (nextSerial s.serial), finishGroup g m.state⟩
  else refuse (m.refusal.getD .badArgument) s

/-- R138. -/
def groupMoveRequest (x : Client) (p m : BitVec 4) (a : Word) (s : State) : Answer :=
  match groupModifier m, panelMask a with
  | some (d, org), some mask =>
    let cs := (maskChans mask).filter s.populated
    match firstFailing [failsIf (!isPanel15 p || cs.isEmpty) .badArgument,
        failsIf (!s.hasRight x .group) .notPermitted,
        failsIf (!s.ready || !s.calLoaded || s.erasing) .notReady] with
    | some r => refuse r s
    | none =>
      match s.freeEntry with
      | none => refuse .busy s
      | some g => admitMembers g x d org cs s
  | _, _ => refuse .badArgument s

/-- GROUP MOVE (R138 to R141). -/
def execGroupMove (x : Client) (p m : BitVec 4) (a : Word) (s : State) : Host.Outcome State Fault Refusal :=
  serve x (routed (groupMoveRequest x p m a)) s

/-! ## GROUP CANCEL -/

/-- The index in a word's high byte, 0 to 3. -/
def groupIndex (n : Nat) : Option (Fin 4) := if h : n < 4 then some ⟨n, h⟩ else none

/-- The channel holds the order of a member of entry `g`. -/
def State.holdsGroupOrder (s : State) (g : Fin 4) (c : Chan) : Bool :=
  match (s.ch c).moc.order with
  | some o => o.mover = .group g
  | none => false

/-- R142: a PENDING member's order ends CANCELLED, a RUNNING member's HALTED. -/
def cancelMember (g : Fin 4) (s : State) (c : Chan) : State :=
  if s.holdsGroupOrder g c then
    endOrder c (if (s.ch c).moc.motion = .queued then .cancelled else .halted) s
  else s

/-- R142. -/
def groupCancelRequest (x : Client) (p m : BitVec 4) (a : Word) (s : State) : Answer :=
  let serial := (a.extractLsb' 0 8).toNat
  match groupIndex (a.extractLsb' 8 8).toNat with
  | none => refuse .badArgument s
  | some g =>
    match firstFailing [failsIf (!isPanel15 p || decide (m ≠ 0)) .badArgument,
        failsIf (!s.hasRight x .group) .notPermitted, failsIf (!s.ready) .notReady] with
    | some r => refuse r s
    | none =>
      match s.group g with
      | none => refuse .badArgument s
      | some e =>
        if e.serial ≠ serial then refuse .badArgument s
        else if e.owner ≠ x then refuse .notPermitted s
        else
          ⟨.done, natWord (allChans.filter (s.holdsGroupOrder g)).length, allChans.foldl (cancelMember g) s⟩

/-- GROUP CANCEL (R142). -/
def execGroupCancel (x : Client) (p m : BitVec 4) (a : Word) (s : State) : Host.Outcome State Fault Refusal :=
  serve x (routed (groupCancelRequest x p m a)) s

/-! ## READ GROUP -/

/-- R140, R143: a member's outcome code in the high byte; for SKIPPED the result in the low byte. -/
def State.outcomeWord (s : State) (c : Chan) : MemberOutcome → Word
  | .toJudge => bytesWord 24 0
  | .live => bytesWord (if (s.ch c).moc.motion = .queued then 24 else 25) 0
  | .reached => bytesWord 26 0
  | .reversed => bytesWord 27 0
  | .ended e => bytesWord (orderEndCode e) 0
  | .skipped r => bytesWord 28 (resultCode r)

/-- R143: "EMPTY when channel n is not a member". -/
def State.groupField (s : State) (e : GroupEntry) (n : Nat) : Answer :=
  match n with
  | 0 => ⟨.done, bytesWord e.owner.val e.serial, s⟩
  | 1 => ⟨.done, bytesWord (bit (e.dir = .opening)) (bit (e.origin = .remoteReq)), s⟩
  | 2 => ⟨.done, maskWord (maskWhere fun c => e.members[c].isSome), s⟩
  | 3 => ⟨.done, maskWord (maskWhere fun c => (e.members[c].map MemberOutcome.isFinal).getD false), s⟩
  | n =>
    let c := Fin.ofNat 8 (n - 4)
    match e.members[c] with
    | some o => ⟨.done, s.outcomeWord c o, s⟩
    | none => refuse .empty s

/-- R143. -/
def readGroupRequest (p m : BitVec 4) (a : Word) (s : State) : Answer :=
  match groupIndex a.toNat with
  | none => refuse .badArgument s
  | some g =>
    if !isPanel15 p || decide (12 ≤ m.toNat) then refuse .badArgument s
    else
      match s.group g with
      | some e => s.groupField e m.toNat
      | none => refuse .empty s

/-- READ GROUP (R143). -/
def execReadGroup (x : Client) (p m : BitVec 4) (a : Word) (s : State) : Host.Outcome State Fault Refusal :=
  serve x (routed (readGroupRequest p m a)) s

end Sys2Proof.Machine
end

