-- ==== Sys2Proof/Machine/Hall.lean ====
section
/-! DEFINITION. The Hall interface: the pair filter (R3), the decoding of an acceptance (R4 to R7),
the classes of step (R9 to R11), capture records (R12), and MOC's part of a step (R85, R93, R97). -/

namespace Sys2Proof.Machine

/-! ## The pair filter (R3) -/

/-- R3 for one sample: the filter after it, and the pair it accepts, if this is the fourth equal
sample of a new pair. While the phase is unknown no sample equals the accepted pair (R4). -/
def filterSample (pair : Pair) (h : Hif) : Hif × Option Pair :=
  if h.phase = some pair then ({ h with candidate := none, count := 0 }, none)
  else
    let n := if h.candidate = some pair then h.count + 1 else 1
    if 4 ≤ n then ({ h with candidate := none, count := 0 }, some pair)
    else ({ h with candidate := some pair, count := n }, none)

/-! ## Decoding (R5) -/

/-- R5: the direction of a step from the old and the new phase; none where no single input changed. -/
def stepDir (old new : Pair) : Option Dir :=
  match old.toNat, new.toNat with
  | 0, 1 => some .opening
  | 1, 3 => some .opening
  | 3, 2 => some .opening
  | 2, 0 => some .opening
  | 0, 2 => some .closing
  | 1, 0 => some .closing
  | 3, 1 => some .closing
  | 2, 3 => some .closing
  | _, _ => none

/-- R5: +1 for an opening step, −1 for a closing step. -/
def stepDelta : Dir → Int
  | .opening => 1
  | .closing => -1

/-! ## Capture records (R12) -/

/-- R12: append a record; a FIFO that already holds 2 first discards its head and sets the gap mark. -/
def Hif.capture (k : Capture) (h : Hif) : Hif :=
  if 2 ≤ h.fifo.length then { h with fifo := h.fifo.tail ++ [k], gap := true }
  else { h with fifo := h.fifo ++ [k] }

/-- R12: the capture record of a step of direction `d` that brought the counter to `x`. -/
def State.captureOf (s : State) (x : Int) (d : Dir) : Capture := ⟨s.clock.timebase, x, d, s.sup.reading⟩

/-! ## MOC's part of a drive-direction step -/

/-- R85: the target of the order is reached by a step: the opening half of a LEARN REFERENCE run
changes phase and brakes (R163), any other order ends TARGET. -/
def targetByStep (c : Chan) (o : Order) (s : State) : State :=
  if o.phase = .refOpening then
    s |> driveOff c |> changePhase c |> updMoc c (fun k => { k with motion := .brakingOrder })
  else endTarget c s

/-- R146, occasion 2: the follower whose gate an opening step tests: it brought the counter to G. -/
def State.gateAtStep (s : State) (p : Chan) (o : Order) : Option Chan :=
  if aboveGate o.target (s.ch p).cal.gate = true ∧ (s.ch p).hif.pos = ((s.ch p).cal.gate : Int) then
    (s.ch p).cal.companion
  else none

/-- R149, occasion 2: a closing step brought the counter to the Q of a leader that clamps. -/
def State.clampedAtStep (s : State) (c : Chan) (o : Order) : Bool :=
  (s.leadersOf c).any fun p =>
    decide ((s.ch c).hif.pos = ((s.ch p).cal.requirement : Int)) && s.clampedBy c o p

/-- What a drive-direction step does to the order or reversal of `c` (R85, R93, R146, R149). -/
def stepOutcome (c : Chan) (s : State) : State :=
  let x := (s.ch c).hif.pos
  match (s.ch c).moc.motion, (s.ch c).moc.order with
  | .reversing, _ =>
    match (s.ch c).moc.revTarget with
    | some t => if t ≤ x then reversalAtTarget c s else s
    | none => s
  | .opening, some o =>
    if atTarget o.dir o.target x then targetByStep c o s
    else throughGate c o id (s.gateAtStep c o) s
  | .closing, some o =>
    if atTarget o.dir o.target x then targetByStep c o s
    else if s.clampedAtStep c o then enterWaiting c .follower s else s
  | _, _ => s

/-- R51, R90: MOC counts the step, clears the no-step start count and restarts the stall timer. -/
def countStep (c : Chan) (s : State) : State :=
  let s := updMoc c (fun k => { k with noStep := 0, steps := k.steps + 1 }) s
  updMoc c (fun k => { k with
    stall := some (s.clock.now + stallLength (stallReference (s.ch c) (s.ch c).hif.pos)) }) s

/-- A drive-direction step of `c` in direction `d` is handed to MOC; GRP makes its tests (R151,
R152). -/
def driveStep (c : Chan) (d : Dir) (s : State) : State :=
  s |> countStep c
    |> stepOutcome c
    |> (fun s => if d = .opening then noteMoved c s else s)
    |> notifyFollower c

/-! ## The classes of step (R9) -/

/-- R9: a step with the drive off is a coast step while the brake timer runs or for 100 ms after. -/
def State.coasting (s : State) (c : Chan) : Bool :=
  (s.ch c).moc.brakeRunning || decide (s.clock.now < (s.ch c).moc.brakeExpiry + 100000)

/-- R11: a drift step; the sixteenth of an idle period posts DRIFT. -/
def driftStep (c : Chan) (s : State) : State :=
  let n := satSucc 255 (s.ch c).hif.drift
  let s' := updHif c (fun h => { h with drift := n }) s
  if n = 16 then postAt .drift c (s'.ch c).hif.pos 16 s' else s'

/-- R10: a contrary step, with its capture record; R97: a fifth gives WIRING. -/
def contraryStep (c : Chan) (d : Dir) (s : State) : State :=
  let n := satSucc 255 (s.ch c).hif.contrary
  let s' := updHif c (fun h =>
    ({ h with contrary := n }).capture (s.captureOf (s.ch c).hif.pos d)) s
  if 4 < n then enterFault c .wiring s' else s'

/-- R9: a step that is not a range saturation, after the counter changed. -/
def classifyStep (c : Chan) (d : Dir) (s : State) : State :=
  match (s.ch c).moc.motion.drive with
  | some drive =>
    if drive = d then
      s |> updHif c (fun h => h.capture (s.captureOf (s.ch c).hif.pos d)) |> driveStep c d
    else contraryStep c d s
  | none => if s.coasting c then s else driftStep c s

/-- R7, R158: a range saturation: the position becomes invalid, the level NONE, and MOC enters FAULT
with reason RANGE. An order that the channel holds ends before the level drops (R118); with none, which of NRM
and MOC posts first is open (R180, log entry 6). -/
def rangeSaturation (c : Chan) (s : State) : State :=
  let s := updHif c (fun h => { h with posValid := false }) s
  let lower := setLevel c .noneKnown (s.ch c).hif.pos
  if s.hasOrder c then enterFaultWith c .range lower s
  else
    match drawPostsFirst s with
    | (true, s) => s |> lower |> enterFault c .range
    | (false, s) => enterFaultWith c .range lower s

/-- R5, R7: a step of direction `d`. -/
def hallStep (c : Chan) (d : Dir) (s : State) : State :=
  let x := (s.ch c).hif.pos + stepDelta d
  if x < -1024 ∨ 5119 < x then rangeSaturation c s
  else s |> updHif c (fun h => { h with pos := x }) |> classifyStep c d

/-- R6, R97: a quadrature error; a ninth with the drive on gives QUAD. Which of HIF and MOC posts first is
then open (R180, log entry 6). -/
def quadratureError (c : Chan) (s : State) : State :=
  let n := satSucc 255 (s.ch c).hif.quadErrors
  let posted := postAt .quadError c (s.ch c).hif.pos (natWord n)
  let s' := updHif c (fun h => { h with quadErrors := n }) s
  if s.driveIsOn c ∧ 8 < n then
    match drawPostsFirst s' with
    | (true, s') => s' |> posted |> enterFault c .quad
    | (false, s') => s' |> enterFault c .quad |> posted
  else posted s'

/-- R3 to R6: the acceptance of `pair`. -/
def accept (c : Chan) (pair : Pair) (s : State) : State :=
  let old := (s.ch c).hif.phase
  let s' := updHif c (fun h => { h with phase := some pair, candidate := none, count := 0 }) s
  match old with
  | none => s'
  | some p =>
    if p = pair then s'
    else
      match stepDir p pair with
      | some d => hallStep c d s'
      | none => quadratureError c s'

/-- R15: HIF samples the channel: every channel until the load completes, then each populated one. -/
def State.sampled (s : State) (c : Chan) : Bool := !s.ready || s.populated c

/-- HALL_ACCEPTANCE (R3 to R7, R9 to R12), whatever the filter holds (log entry 28). An unpopulated
channel's "inputs make no acceptance". -/
def execHallAcceptance (c : Chan) (pair : Pair) (s : State) : Host.Outcome State Fault Refusal :=
  finish (if s.sampled c then accept c pair s else s)

end Sys2Proof.Machine
end

