-- ==== Sys2Proof/Machine/Learn.lean ====
section
/-! DEFINITION. The LEARN requests (R159 to R161). -/

namespace Sys2Proof.Machine

/-- R161: the first order of a learning run of client `x` in phase `ph`. -/
def learnOrder (x : Client) (ph : Phase) (accepted : Word) : Order where
  dir := .opening
  mode := .auto
  target := .toEnd
  origin := .localReq
  mover := .learn
  client := x
  phase := ph
  k := 0
  refresh := none
  accepted := accepted

/-- R160: checks 2 to 8 for a run that needs level `need` or higher. -/
def State.learnRefusal (s : State) (x : Client) (c : Chan) (need : Level) : Option Result :=
  firstFailing [
    failsIf (!s.hasRight x .calibrate || !s.mayAct x c) .notPermitted,
    failsIf (s.lockedOut x c) .lockedOut,
    failsIf (decide ((s.ch c).auth.claims ≠ 0)) .claimed,
    failsIf (decide ((s.ch c).moc.motion = .fault) || !s.ready || !s.calLoaded || s.erasing) .notReady,
    failsIf (decide (levelCode (s.ch c).level < levelCode need)) .unlearned,
    failsIf (decide (s.sup.state ≠ .normal)) .supply,
    failsIf (decide ((s.ch c).moc.motion ≠ .idle)) .busy]

/-- R160: at ACCEPTED the learning record is set and the first order is installed (R161). -/
def startLearning (x : Client) (c : Chan) (kind : RunKind) (ph : Phase) (s : State) : Answer :=
  let o := learnOrder x ph s.clock.ms
  ⟨.accepted, targetWord (s.normalized c o).target,
    s |> updLearning c (fun _ => ⟨some kind, some x, none⟩) |> handOver c o⟩

/-- R160 for one of the two learning runs. -/
def learnRequest (x : Client) (p : BitVec 4) (a : Word) (kind : RunKind) (ph : Phase) (need : Level)
    (s : State) : Answer :=
  match chanOf p with
  | none => refuse .badArgument s
  | some c =>
    if !s.populated c || decide (a ≠ 0) then refuse .badArgument s
    else
      match s.learnRefusal x c need with
      | some r => refuse r s
      | none => startLearning x c kind ph s

/-- LEARN OPEN END (R160); a modifier that chapter 10 does not define for LEARN fails check 1. -/
def execLearnOpenEnd (x : Client) (p m : BitVec 4) (a : Word) (s : State) : Host.Outcome State Fault Refusal :=
  serve x (routed (if m = 0 then learnRequest x p a .openEnd .openEnd .closedKnown else refuse .badArgument)) s

/-- LEARN REFERENCE (R160). -/
def execLearnReference (x : Client) (p : BitVec 4) (a : Word) (s : State) : Host.Outcome State Fault Refusal :=
  serve x (routed (learnRequest x p a .reference .refOpening .endsKnown)) s

/-- R159: Lt and the profile become absent, and a level of ENDS_KNOWN or LEARNED falls to
CLOSED_KNOWN. -/
def forgetChannel (c : Chan) (s : State) : State :=
  if (s.ch c).cal.travel.isSome then
    let s := updCal c (fun r =>
      ({ r with travel := none, profile := none, adaptations := 0 }).markChanged) s
    if levelCode .endsKnown ≤ levelCode (s.ch c).level then setLevel c .closedKnown (s.ch c).hif.pos s else s
  else s

/-- R159. -/
def forgetRequest (x : Client) (p : BitVec 4) (a : Word) (s : State) : Answer :=
  match chanOf p with
  | none => refuse .badArgument s
  | some c =>
    match firstFailing [
        failsIf (!s.populated c || decide (a ≠ 0)) .badArgument,
        failsIf (!s.hasRight x .calibrate || !s.mayAct x c) .notPermitted,
        failsIf (!s.ready || !s.calLoaded || s.erasing) .notReady,
        failsIf (decide ((s.ch c).moc.motion ≠ .idle ∧ (s.ch c).moc.motion ≠ .fault)) .busy] with
    | some r => refuse r s
    | none => ⟨.done, natWord (bit (s.ch c).cal.travel.isSome), forgetChannel c s⟩

/-- LEARN FORGET (R159). -/
def execForget (x : Client) (p : BitVec 4) (a : Word) (s : State) : Host.Outcome State Fault Refusal :=
  serve x (routed (forgetRequest x p a)) s

end Sys2Proof.Machine
end

