-- ==== Sys2Proof/Machine/Load.lean ====
section
/-! DEFINITION. The load estimator: the round robin (R30), the take (R31), and the arithmetic of a
step (R32 to R49). -/

namespace Sys2Proof.Machine

/-! ## The take (R13, R30, R31) -/

/-- R30: the search order, "starting after the last-served channel and wrapping from 7 to 0". -/
def searchOrder (last : Chan) : List Chan := [1, 2, 3, 4, 5, 6, 7, 0].map (last + ·)

/-- R30: the channel served next: the first in search order whose FIFO holds a record. -/
def State.nextServed (s : State) : Option Chan :=
  (searchOrder s.lde.lastServed).find? fun c => !(s.ch c).hif.fifo.isEmpty

/-- R31: the override level that the take reads, 0 with the drive off. -/
def State.takenK (s : State) (c : Chan) : Nat :=
  match s.driveIsOn c, (s.ch c).moc.order with
  | true, some o => o.k
  | _, _ => 0

/-- R31: whether the take reads the closing half of a learning run, not with the drive off. -/
def State.takenLearnClose (s : State) (c : Chan) : Bool :=
  match s.driveIsOn c, (s.ch c).moc.order with
  | true, some o => o.phase = .refClosing
  | _, _ => false

/-- R13, R31: what the take of record `r` of `c` reads. -/
def State.takeOf (s : State) (c : Chan) (r : Capture) : Take where
  chan := c
  since := s.clock.now
  record := r
  gap := (s.ch c).hif.gap
  blank := (s.ch c).ctx.blank
  level := (s.ch c).level
  k := s.takenK c
  learnClose := s.takenLearnClose c
  cal := (s.ch c).cal
  supply := s.sup.state
  dropped := false
  reblanked := false

/-- R13, R30: LDE, when free, takes the head record of the next channel, and the gap mark with it. -/
def takeNext (s : State) : State :=
  match s.lde.busy, s.nextServed with
  | none, some c =>
    match (s.ch c).hif.fifo with
    | r :: rest =>
      let t := s.takeOf c r
      { updHif c (fun h => { h with fifo := rest, gap := false }) s with lde := ⟨c, some t⟩ }
    | [] => s
  | _, _ => s

/-- LDE_TAKE (R30). -/
def execLdeTake (s : State) : Host.Outcome State Fault Refusal := finish (takeNext s)

/-! ## The arithmetic of a step (R33 to R46) -/

/-- R33: P = (t − t_prev) mod 65536. -/
def period (t tPrev : Word) : Nat := (t - tPrev).toNat

/-- R34: Pc = min((P × V_c + 675) div 1350, 65535). -/
def compensate (p v : Nat) : Nat := min ((p * clampNat 800 1600 v + 675) / 1350) 65535

/-- R37: the ABSOLUTE limit min(65535, Ru × (k + 1)). -/
def absoluteLimit (ru k : Nat) : Nat := min 65535 (ru * (k + 1))

/-- R39: T' = min(4095, T × (k + 1)). -/
def scaledT (t k : Nat) : Nat := min 4095 (t * (k + 1))

/-- R39: E' = min(65535, E × (k + 1)). -/
def scaledE (e k : Nat) : Nat := min 65535 (e * (k + 1))

/-- R40: L = trunc(D × 1024 / R), clamped into −1024..4095. -/
def loadFigure (pc r : Nat) : Int := clampInt (-1024) 4095 ((((pc : Int) - r) * 1024).tdiv r)

/-- R41: the limited figure L'. -/
def limitedFigure (l sPrev : Int) (j : Nat) : Int := if sPrev + j < l then sPrev + j else l

/-- R42: S = S_prev + trunc((L' − S_prev) / 4). -/
def smooth (sPrev l : Int) : Int := sPrev + (l - sPrev).tdiv 4

/-- R43: A of a GUARD step that is not blanked. -/
def accumulate (a : Nat) (s : Int) (t' : Nat) : Nat :=
  if (t' : Int) < s then min 65535 (a + (s - t').toNat) else (max 0 ((a : Int) - (t' - s))).toNat

/-- R43: A by the kind of the zone in force. -/
def excessAfter (kind : Option ZoneKind) (blanked : Bool) (a : Nat) (s : Int) (t' : Nat) : Nat :=
  match kind with
  | some .guard => if blanked then a else accumulate a s t'
  | some .watch => a
  | some .seal => 0
  | none => a

/-- A decision with the load it carries. -/
structure Decision where
  reason : PinchReason
  load : Int
  deriving DecidableEq, Repr

/-- R46: the decision at the end of a FULL step in zone `z`, `s` and `a` after the step. -/
def fullDecision (z : Option Zone) (k : Nat) (blanked : Bool) (s : Int) (a : Nat) : Option Decision :=
  match z with
  | none => none
  | some z =>
    match z.kind with
    | .seal => none
    | .watch => if (z.h : Int) ≤ s then some ⟨.hard, s⟩ else none
    | .guard =>
      if (z.h : Int) ≤ s then some ⟨.hard, s⟩
      else if !blanked && decide (scaledE z.e k ≤ a) then some ⟨.accumulated, s⟩
      else none

/-- R37: the decision of an ABSOLUTE step: tested at level NONE everywhere, else outside SEAL. -/
def absoluteDecision (lvl : Level) (kind : Option ZoneKind) (pc limit : Nat) : Option Decision :=
  if (lvl = .noneKnown ∨ kind ≠ some .seal) ∧ limit ≤ pc then some ⟨.absolute, 0⟩ else none

/-- R49: a counted step adds its compensated period to its band, up to 32 counts. -/
def countBand (bands : Vector BandSum 127) (b pc : Nat) : Vector BandSum 127 :=
  if h : b < 127 then
    if bands[b].count < 32 then bands.set b ⟨bands[b].sum + pc, bands[b].count + 1⟩ else bands
  else bands

/-- R33: a seed; taken with the gap mark it raises the gap count. -/
def seedStep (t : Take) (k : LoadContext) : LoadContext :=
  { k with tPrev := t.record.stamp, seeded := true
           gapCount := if t.gap then satSucc 255 k.gapCount else k.gapCount }

/-- R36: the step is a run-up step: the run-up count is below Nr before it. -/
def isRunUp (t : Take) (k : LoadContext) : Bool := k.runUp < t.cal.nr

/-- R45: the step is blanked. -/
def isBlanked (t : Take) (k : LoadContext) : Bool := decide (0 < t.blank) && !isRunUp t k

/-- R36: the step is in the FULL regime. -/
def isFull (t : Take) (k : LoadContext) : Bool :=
  decide (t.level = .learned) && !isRunUp t k && !t.learnClose

/-- R38: the zone in force for the step: none at level NONE. -/
def zoneOf (t : Take) : Option Zone :=
  if t.level = .noneKnown then none else zoneAt t.cal.zones t.record.pos

/-- R33, R35, R36, R45, R49: what every computed step changes, in both regimes. A blanking set
between take and completion stands for the next record (log entry 11). -/
def commonStep (t : Take) (pc : Nat) (k : LoadContext) : LoadContext :=
  { k with
    tPrev := t.record.stamp
    runUp := if isRunUp t k then k.runUp + 1 else k.runUp
    blank := if t.reblanked then k.blank else if isBlanked t k then t.blank - 1 else k.blank
    qualified := k.qualified && decide (t.supply = .normal)
    bands := match t.cal.travel with
      | some lt =>
        if !isRunUp t k && !isBlanked t k then countBand k.bands (bandOf lt t.record.pos) pc else k.bands
      | none => k.bands }

/-- R40 to R43: the FULL arithmetic against the reference `r`. -/
def fullStep (t : Take) (pc r : Nat) (k : LoadContext) : LoadContext :=
  let l := loadFigure pc r
  let s := smooth k.smoothed (limitedFigure l k.smoothed t.cal.jolt)
  { k with
    smoothed := s
    excess := excessAfter ((zoneOf t).map Zone.kind) (isBlanked t k) k.excess s
      (scaledT (((zoneOf t).map Zone.t).getD 0) t.k)
    joltCount := if k.smoothed + t.cal.jolt < l then satSucc 255 k.joltCount else k.joltCount }

/-- R47: a decision sets decided. -/
def markDecided (d : Option Decision) (k : LoadContext) : LoadContext :=
  if d.isSome then { k with decided := true } else k

/-- R33 to R49: a computed step: the context after it and the decision it yields. -/
def computedStep (t : Take) (k : LoadContext) : LoadContext × Option Decision :=
  let pc := compensate (period t.record.stamp k.tPrev) t.record.reading
  if isFull t k then
    let k' := fullStep t pc ((reference t.cal t.record.pos).getD 0) k
    let d := fullDecision (zoneOf t) t.k (isBlanked t k) k'.smoothed k'.excess
    (markDecided d (commonStep t pc k'), d)
  else
    let d := absoluteDecision t.level ((zoneOf t).map Zone.kind) pc (absoluteLimit t.cal.ru t.k)
    (markDecided d (commonStep t pc k), d)

/-- R32: the record is computed: a closing record of an undecided closing run, seeded, without the
gap mark. -/
def isComputed (t : Take) (k : LoadContext) : Bool :=
  decide (k.runDir = some .closing) && !k.decided && decide (t.record.dir = .closing) && !t.gap && k.seeded

/-- R32: the record sorted and treated. -/
def treatRecord (t : Take) (k : LoadContext) : LoadContext × Option Decision :=
  if k.runDir ≠ some .closing then (k, none)
  else if k.decided then (k, none)
  else if t.record.dir = .opening then ({ k with seeded := false }, none)
  else if t.gap then (seedStep t k, none)
  else if !k.seeded then (seedStep t k, none)
  else computedStep t k

/-! ## The completion (R31, R35, R47) -/

/-- R35, R164: a computed step of a learning close taken in LOW, HIGH or CRANK sets the failure mark
SUPPLY if it is none. Neither rule says what the report does when the order has ended between the take and the
completion: here it sets no mark then (DESIGN CHOICE, log entry 42). -/
def markSupply (c : Chan) (s : State) : State :=
  match (s.ch c).moc.order with
  | some o =>
    if o.phase = .refClosing then updLearning c (fun l => { l with mark := some (l.mark.getD .supply) }) s
    else s
  | none => s

/-- R31: LDE writes the results into the context and hands a decision to MOC; the results of a take
that a drive-on or restart overtook are dropped. -/
def completeTake (t : Take) (s : State) : State :=
  let s := { s with lde := { s.lde with busy := none } }
  if t.dropped then s
  else
    let k := (s.ch t.chan).ctx
    let r := treatRecord t k
    let s := updCtx t.chan (fun _ => r.1) s
    let s := if isComputed t k && t.learnClose && decide (t.supply ≠ .normal) then markSupply t.chan s else s
    match r.2 with
    | some d => pinch t.chan d.reason d.load t.record.pos s
    | none => s

/-- LDE_COMPLETION (R31): nothing happens while LDE is free. -/
def execLdeCompletion (s : State) : Host.Outcome State Fault Refusal :=
  finish (match s.lde.busy with
    | some t => completeTake t s
    | none => s)

end Sys2Proof.Machine
end

