-- ==== Sys2Proof/Machine/Nvm.lean ====
section
/-! DEFINITION. The calibration memory controller (chapter 11): STORE, CAL LOCK, CAL ERASE and their
completions, the start-up load, and the reset of the device. -/

namespace Sys2Proof.Machine

/-! ## Stored records (R185) -/

/-- R185: the format version, 0002h. -/
def storeVersion : Word := 0x0002

/-- R179: the number of the global record. -/
def globalNumber : Nat := 15

/-- R185: the condition of the stored record of number `n`. -/
def Stored.condition {α : Type} (n : Nat) (r : Stored α) : Condition :=
  if r.version = storeVersion ∧ r.number = n then (if r.sumOk then .valid else .corrupt) else .blank

/-- A record of number `n` whose marker is right, and whose checksum holds or not. -/
def writtenRecord {α : Type} (n : Nat) (sumOk : Bool) (contents : α) : Stored α :=
  ⟨storeVersion, n, sumOk, contents⟩

/-- R185: "The unsaved flags and the changed-since-snapshot marks ... are not stored." -/
def CalRecord.clean (r : CalRecord) : CalRecord := { r with unsaved := false, changed := false }

/-- R185 for the global record. -/
def GlobalRecord.clean (g : GlobalRecord) : GlobalRecord := { g with unsaved := false, changed := false }

/-- Put `r` into the image as channel record `c`. -/
def storeChannelRecord (c : Chan) (r : Stored CalRecord) (v : Nvc) : Nvc :=
  { v with channels := v.channels.set c r }

/-! ## STORE (R188) -/

/-- R188: the store-busy flag is set, with an operation that takes `us` microseconds. -/
def beginJob (job : NvJob) (us : Nat) (s : State) : State :=
  { s with nvc := { s.nvc with busy := some ⟨job, s.clock.now, s.clock.now + us⟩ } }

/-- R188 at DONE for a channel record: the snapshot, the mark, and a write of 35 ms. -/
def beginStore (c : Chan) (s : State) : State :=
  s |> beginJob (.storeChannel c (s.ch c).cal.clean) 35000
    |> updCal c (fun r => { r with changed := false })

/-- R188 at DONE for the global record: a write of 10 ms. -/
def beginStoreGlobal (s : State) : State :=
  s |> beginJob (.storeGlobal s.glob.clean) 10000 |> updGlobal (fun g => { g with changed := false })

/-- R188. -/
def storeRequest (x : Client) (p m : BitVec 4) (a : Word) (s : State) : Answer :=
  let malformed := decide (m ≠ 0) || decide (a ≠ 0) || ((chanOf p).isNone && !isPanel15 p)
  match firstFailing [failsIf malformed .badArgument, failsIf (!s.hasRight x .calibrate) .notPermitted,
      failsIf s.nvc.busy.isSome .busy] with
  | some r => refuse r s
  | none =>
    match chanOf p with
    | some c => ⟨.done, 0, beginStore c s⟩
    | none => ⟨.done, 0, beginStoreGlobal s⟩

/-- STORE (R188). -/
def execStore (x : Client) (p m : BitVec 4) (a : Word) (s : State) : Host.Outcome State Fault Refusal :=
  serve x (routed (storeRequest x p m a)) s

/-! ## CAL LOCK (R190) -/

/-- R190 at DONE with the lock flag clear: the lock is set, the staging buffer is discarded, and the
global record is written with the lock set. -/
def lockCalibration (s : State) : State :=
  let g : GlobalRecord := { s.glob with locked := true }
  s |> updGlobal (fun g => { g with locked := true, changed := false })
    |> discardStaging
    |> beginJob (.lockWrite g.clean) 10000

/-- R190. -/
def calLockRequest (x : Client) (p m : BitVec 4) (a : Word) (s : State) : Answer :=
  match firstFailing [failsIf (!isPanel15 p || decide (m ≠ 0) || decide (a ≠ 0)) .badArgument,
      failsIf (!s.hasRight x .calibrate) .notPermitted, failsIf s.nvc.busy.isSome .busy] with
  | some r => refuse r s
  | none => if s.glob.locked then ⟨.done, 0, s⟩ else ⟨.done, 1, lockCalibration s⟩

/-- CAL LOCK (R190). -/
def execCalLock (x : Client) (p m : BitVec 4) (a : Word) (s : State) : Host.Outcome State Fault Refusal :=
  serve x (routed (calLockRequest x p m a)) s

/-! ## CAL ERASE (R191) -/

/-- R191 for one channel: the erased defaults; a channel that becomes populated starts acquisition;
a level above CLOSED_KNOWN falls to CLOSED_KNOWN. -/
def eraseChannel (s : State) (c : Chan) : State :=
  let wasPopulated := s.populated c
  let s := updCal c (fun _ => defaultCal) s
  let s := if wasPopulated then s else applyPopulated c s
  if levelCode .closedKnown < levelCode (s.ch c).level then setLevel c .closedKnown (s.ch c).hif.pos s else s

/-- R191 at DONE; the channels are taken in channel order (log entry 14). The global record takes its
defaults first, so LEVEL_CHANGED goes out under the erased default rights (log entry 33). -/
def eraseCalibration (s : State) : State :=
  allChans.foldl eraseChannel { s with glob := defaultGlobal }
    |> discardStaging
    |> beginJob .erase 60000

/-- R191. -/
def calEraseRequest (x : Client) (p m : BitVec 4) (a : Word) (s : State) : Answer :=
  match firstFailing [failsIf (!isPanel15 p || decide (m ≠ 0) || decide (a ≠ 0)) .badArgument,
      failsIf (!s.hasRight x .calibrate) .notPermitted,
      failsIf (s.nvc.busy.isSome || allChans.any fun c => !s.atRest c) .busy] with
  | some r => refuse r s
  | none => ⟨.done, 0, eraseCalibration s⟩

/-- CAL ERASE (R191). -/
def execCalErase (x : Client) (p m : BitVec 4) (a : Word) (s : State) : Host.Outcome State Fault Refusal :=
  serve x (routed (calEraseRequest x p m a)) s

/-! ## Completions -/

/-- The event of a completion (R179): record number and result. -/
def storeDone (record result : Nat) : State → State := post .storeDone none 0 (bytesWord record result)

/-- The store-busy flag clears. -/
def clearBusy (s : State) : State := { s with nvc := { s.nvc with busy := none } }

/-- R188: "The unsaved flag becomes no if the mark is still no, and stays yes otherwise"; a read-back
that is not valid makes it yes. -/
def unsavedAfter (valid unsaved changed : Bool) : Bool := if valid then unsaved && changed else true

/-- The result code of a write's read-back (R179). -/
def readBackResult (valid : Bool) : Nat := if valid then 0 else 2

/-- R188 at the completion of a channel record's write. -/
def channelWritten (c : Chan) (snapshot : CalRecord) (valid : Bool) (s : State) : State :=
  { s with nvc := storeChannelRecord c (writtenRecord c.val valid snapshot) s.nvc }
    |> updCal c (fun r => { r with unsaved := unsavedAfter valid r.unsaved r.changed })
    |> clearBusy
    |> storeDone c.val (readBackResult valid)

/-- R188, R190 at the completion of the global record's write. -/
def globalWritten (snapshot : GlobalRecord) (valid : Bool) (s : State) : State :=
  { s with nvc := { s.nvc with glob := writtenRecord globalNumber valid snapshot } }
    |> updGlobal (fun g => { g with unsaved := unsavedAfter valid g.unsaved g.changed })
    |> clearBusy
    |> storeDone globalNumber (readBackResult valid)

/-- STORE_COMPLETION (R188): nothing happens while no write is due (log entry 2). -/
def execStoreCompletion (valid : Bool) (s : State) : Host.Outcome State Fault Refusal :=
  finish (match s.nvc.busy with
    | some b =>
      if b.done ≤ s.clock.now then
        match b.job with
        | .storeChannel c snapshot => channelWritten c snapshot valid s
        | .storeGlobal snapshot => globalWritten snapshot valid s
        | .lockWrite snapshot => globalWritten snapshot valid s
        | .erase => s
      else s
    | none => s)

/-- R191: every record is blank, the flag clears and STORE_DONE is posted. -/
def imageErased (s : State) : State := { s with nvc := blankImage } |> storeDone globalNumber 1

/-- CAL_ERASE_COMPLETION (R191): nothing happens while no erase is due (log entry 2). -/
def execCalEraseCompletion (s : State) : Host.Outcome State Fault Refusal :=
  finish (match s.nvc.busy with
    | some b => if b.job = .erase ∧ b.done ≤ s.clock.now then imageErased s else s
    | none => s)

/-! ## The start-up load (R186, R187) -/

/-- R186: the working record that a stored channel record loads as. -/
def loadChannelRecord (n : Nat) (r : Stored CalRecord) : CalRecord :=
  match r.condition n with
  | .valid => r.contents.clean
  | .blank => defaultCal
  | .corrupt => { defaultCal with unsaved := true }

/-- R186 for the global record. -/
def loadGlobalRecord (r : Stored GlobalRecord) : GlobalRecord :=
  match r.condition globalNumber with
  | .valid => r.contents.clean
  | .blank => defaultGlobal
  | .corrupt => { defaultGlobal with unsaved := true }

/-- R186: the records as the load left them, channel `c`'s. -/
def Nvc.loaded (v : Nvc) (c : Chan) : CalRecord := loadChannelRecord c.val v.channels[c]

/-- R186: channel `p`, which names `c`, loses its companion. -/
def Nvc.companionBad (v : Nvc) (p c : Chan) : Bool :=
  !(v.loaded c).populated || (v.loaded c).companion.isSome || !(v.loaded p).populated ||
  allChans.any fun q => decide (q ≠ p) && decide ((v.loaded q).companion = some p)

/-- R186: the working record of `p` after the companion check. -/
def Nvc.working (v : Nvc) (p : Chan) : CalRecord :=
  match (v.loaded p).companion with
  | some c => if v.companionBad p c then { v.loaded p with companion := none, unsaved := true } else v.loaded p
  | none => v.loaded p

/-- R187: "one bit for each corrupt channel record and a bit for a corrupt global record". -/
def Nvc.corruptBits (v : Nvc) : Word :=
  natWord (256 * bit (v.glob.condition globalNumber = .corrupt)) |||
  maskWord (maskWhere fun c => v.channels[c].condition c.val = .corrupt)

/-- R83, R186: channel `c` takes its record; an unpopulated one is cleared (R15, R62, log entry 29); the
brake timer takes the record's interval, measured from the release of reset (log entry 18). -/
def loadChannel (s : State) (c : Chan) : State :=
  let r := s.nvc.working c
  let s := updCal c (fun _ => r) s
  let s := if r.populated then s else applyPopulated c s
  updMoc c (fun k => { k with
    brakeExpiry := 10000 * r.brake
    brakeRunning := k.brakeRunning || decide (s.clock.now < 10000 * r.brake) }) s

/-- R186: the completion of the load: the records, READY, the sectors from sector 0, and STARTUP. R186 and R55 say
that the load replaces one record after another and give no time for each: here every working record takes its values
at the completion, and shows the erased defaults until then (DESIGN CHOICE, log entry 39). -/
def loadAll (s : State) : State :=
  let s := allChans.foldl loadChannel { s with glob := loadGlobalRecord s.nvc.glob }
  { s with
    calLoaded := true
    ready := true
    stb := { s.stb with sectorOne := false, since := s.clock.now } }
  |> post .startup none 0 s.nvc.corruptBits

/-- START_UP_LOAD (R186, R187): the load completes once after each reset (log entry 2). -/
def execStartUpLoad (s : State) : Host.Outcome State Fault Refusal := finish (if s.ready then s else loadAll s)

/-! ## Reset (R16, R22, R28, R55, R76, R103, R115, R137, R145, R155, R172, R181, R184, R189) -/

/-- R189: a stored record cut off while it was written. -/
def cutChannel (c : Chan) (v : Nvc) : Nvc :=
  storeChannelRecord c (writtenRecord c.val false v.channels[c].contents) v

/-- R189: the global record cut off while it was written. -/
def cutGlobal (v : Nvc) : Nvc := { v with glob := writtenRecord globalNumber false v.glob.contents }

/-- R189: what becomes of record `i` of the erase (0 global, 1 + c channel `c`) when `n` are blanked;
`b` says that the one being blanked is left blank. -/
def cutErased {α : Type} (n i number : Nat) (b : Bool) (r : Stored α) (contents : α) : Stored α :=
  if i < n ∨ (i = n ∧ b = true) then blankRecord contents
  else if i = n then writtenRecord number false contents
  else r

/-- R189: the image after an erase that a reset cut off. -/
def cutErase (n : Nat) (b : Bool) (v : Nvc) : Nvc where
  channels := Vector.ofFn fun c => cutErased n (c.val + 1) c.val b v.channels[c] defaultCal
  glob := cutErased n 0 globalNumber b v.glob defaultGlobal
  busy := none

/-- R189: the image that a reset leaves, with the store-busy flag clear. -/
def imageAfterReset (now fresh : Nat) (v : Nvc) : Nvc :=
  match v.busy with
  | none => v
  | some b =>
    match b.job with
    | .storeChannel c _ => { cutChannel c v with busy := none }
    | .storeGlobal _ => { cutGlobal v with busy := none }
    | .lockWrite _ => { cutGlobal v with busy := none }
    | .erase => cutErase (min 8 (Config.erasedAfter (now - b.since) fresh)) (Config.cutRecordBlank fresh) v

/-- The device at the release of a reset, with STMODE at `stmode`: every block at its reset values; the
image, the input pins and the waiting commands stand, and the model's count of open choices rises by one
(log entry 5). -/
def resetDevice (stmode : Bool) (s : State) : State :=
  { State.reset with
    nvc := imageAfterReset s.clock.now s.fresh s.nvc
    pins := { s.pins with stmode := stmode }
    stb := resetBus stmode
    fresh := s.fresh + 1
    pending := s.pending }

/-- RESET_N (R16 and the reset rules of every block). -/
def execResetN (stmode : Bool) (s : State) : Host.Outcome State Fault Refusal := .next (resetDevice stmode s)

end Sys2Proof.Machine
end

