-- ==== Sys2Proof/Machine/StatusBus.lean ====
section
/-! DEFINITION. The status bus (R184): the sector phase in POLLED and the STSEL pin in DIRECT. -/

namespace Sys2Proof.Machine

/-- R184: the sector shown has been shown for 1 ms, in POLLED, from READY onward. -/
def State.sectorDue (s : State) : Bool :=
  s.ready && decide (s.stb.mode = .polled) && decide (s.stb.since + 1000 ≤ s.clock.now)

/-- SECTOR_SWITCH (R184); nothing happens while no switch is due (log entry 2). -/
def execSectorSwitch (s : State) : Host.Outcome State Fault Refusal :=
  finish (if s.sectorDue then
    { s with stb := { s.stb with sectorOne := !s.stb.sectorOne, since := s.stb.since + 1000 } } else s)

/-- STSEL_CHANGE (R184): STSEL takes the level; the lines follow it in DIRECT (`State.statusLine`). -/
def execStselChange (level : Bool) (s : State) : Host.Outcome State Fault Refusal :=
  finish { s with pins := { s.pins with stsel := level } }

end Sys2Proof.Machine
end

