-- ==== Sys2Proof/Machine/SupplyMon.lean ====
section
/-! DEFINITION. The supply monitor: the runs (R19), the states (R20 to R22), the event (R23), and the
shutdown at CRANK (R25, R26). -/

namespace Sys2Proof.Machine

/-- R19: the limit that a sample must satisfy to raise the exit run, in the current state. -/
def exitOk (st : SupplyState) (r : Nat) : Bool :=
  match st with
  | .crank => 700 ≤ r
  | .low => 850 ≤ r
  | .high => r ≤ 1550
  | .normal => false

/-- R18, R19, R22: the reading, the three runs and the settling count after a sample. R22 brings the count to 4
at the fourth sample and says nothing further of it: it is held at 4 (DESIGN CHOICE, log entry 35). -/
def Supply.sample (r : Nat) (p : Supply) : Supply :=
  { p with
    reading := r
    lowRun := if r < 800 then satSucc 255 p.lowRun else 0
    highRun := if 1600 < r then satSucc 255 p.highRun else 0
    exitRun := if exitOk p.state r then satSucc 255 p.exitRun else 0
    settling := satSucc 4 p.settling }

/-- R20, R21: the state that a sample gives, from the runs after it. -/
def Supply.next (p : Supply) : SupplyState :=
  if p.reading < 600 then .crank
  else
    match p.state with
    | .crank =>
      if 40 ≤ p.exitRun then
        if 4 ≤ p.lowRun then .low else if 4 ≤ p.highRun then .high else .normal
      else .crank
    | .low => if 20 ≤ p.exitRun then (if 4 ≤ p.highRun then .high else .normal) else .low
    | .high => if 4 ≤ p.lowRun then .low else if 20 ≤ p.exitRun then .normal else .high
    | .normal => if 4 ≤ p.lowRun then .low else if 4 ≤ p.highRun then .high else .normal

/-- R25, R26 for one channel: what the change to CRANK does by its motion state. -/
def crankChannel (s : State) (c : Chan) : State :=
  match (s.ch c).moc.motion with
  | .brakingPinch => endReversal c .supply s
  | .reversing => endReversal c .supply s
  | .closing => endOrder c .supply s
  | .opening => endOrder c .supply s
  | .brakingOrder => endOrder c .supply s
  | .waiting => endOrder c .supply s
  | .queued => endOrder c .supply s
  | .idle => s
  | .fault => s

/-- R25, R26: the shutdown; the channels are taken in channel order (log entry 14). -/
def crankShutdown (s : State) : State := allChans.foldl crankChannel s

/-- R18 steps 4 and 5, R22, R23: evaluate the state from the fourth sample on; a change sets the exit
run to 0, posts SUPPLY_STATE and, at CRANK, shuts down. -/
def evaluateSupply (s : State) : State :=
  let st := s.sup.next
  if 4 ≤ s.sup.settling ∧ st ≠ s.sup.state then
    let s' := { s with sup := { s.sup with state := st, exitRun := 0 } }
      |> post .supplyState none 0 (supplyDetail st s.sup.reading)
    if st = .crank then crankShutdown s' else s'
  else s

/-- SUPPLY_SAMPLE (R18), at whatever time (log entry 28): "A rail above 20.47 V reads 2047." -/
def execSupplySample (r : Nat) (s : State) : Host.Outcome State Fault Refusal :=
  finish (evaluateSupply { s with sup := s.sup.sample (min r 2047) })

end Sys2Proof.Machine
end

