-- ==== Sys2Proof/Machine/Dispatch.lean ====
section
/-! DEFINITION. One arm per command, each one direct call of the command's meaning. -/

namespace Sys2Proof.Machine

def exec (i : Instr) (s : State) : Host.Outcome State Fault Refusal :=
  match i with
  | .resetN stmode => Sys2Proof.Machine.execResetN stmode s
  | .startUpLoad => Sys2Proof.Machine.execStartUpLoad s
  | .hallAcceptance c pair => Sys2Proof.Machine.execHallAcceptance c pair s
  | .supplySample reading => Sys2Proof.Machine.execSupplySample reading s
  | .ldeTake => Sys2Proof.Machine.execLdeTake s
  | .ldeCompletion => Sys2Proof.Machine.execLdeCompletion s
  | .stall c => Sys2Proof.Machine.execStall c s
  | .brakeExpiry c => Sys2Proof.Machine.execBrakeExpiry c s
  | .spacingTimerRunOut => Sys2Proof.Machine.execSpacingTimerRunOut s
  | .refreshDeadlineExpiry c => Sys2Proof.Machine.execRefreshDeadlineExpiry c s
  | .waitDeadlineExpiry c => Sys2Proof.Machine.execWaitDeadlineExpiry c s
  | .overrideWindowExpiry c => Sys2Proof.Machine.execOverrideWindowExpiry c s
  | .lapseTimerExpiry x => Sys2Proof.Machine.execLapseTimerExpiry x s
  | .storeCompletion valid => Sys2Proof.Machine.execStoreCompletion valid s
  | .calEraseCompletion => Sys2Proof.Machine.execCalEraseCompletion s
  | .sectorSwitch => Sys2Proof.Machine.execSectorSwitch s
  | .stselChange level => Sys2Proof.Machine.execStselChange level s
  | .frameError x => Sys2Proof.Machine.execFrameError x s
  | .undefinedRequestCode x code => Sys2Proof.Machine.execUndefinedRequestCode x code s
  | .nop x p m a => Sys2Proof.Machine.execNop x p m a s
  | .move x p m a => Sys2Proof.Machine.execMove x p m a s
  | .halt x p m a => Sys2Proof.Machine.execHalt x p m a s
  | .stopClaim x p m a => Sys2Proof.Machine.execStopClaim x p m a s
  | .stopRelease x p m a => Sys2Proof.Machine.execStopRelease x p m a s
  | .lockoutSet x p m a => Sys2Proof.Machine.execLockoutSet x p m a s
  | .lockoutClear x p m a => Sys2Proof.Machine.execLockoutClear x p m a s
  | .ackReversal x p m a => Sys2Proof.Machine.execAckReversal x p m a s
  | .panelRestart x p m a => Sys2Proof.Machine.execPanelRestart x p m a s
  | .groupMove x p m a => Sys2Proof.Machine.execGroupMove x p m a s
  | .groupCancel x p m a => Sys2Proof.Machine.execGroupCancel x p m a s
  | .readGroup x p m a => Sys2Proof.Machine.execReadGroup x p m a s
  | .readPanel x p m a => Sys2Proof.Machine.execReadPanel x p m a s
  | .readEvent x p m a => Sys2Proof.Machine.execReadEvent x p m a s
  | .popEvent x p m a => Sys2Proof.Machine.execPopEvent x p m a s
  | .setEventMask x p m a => Sys2Proof.Machine.execSetEventMask x p m a s
  | .identify x p m a => Sys2Proof.Machine.execIdentify x p m a s
  | .learnOpenEnd x p m a => Sys2Proof.Machine.execLearnOpenEnd x p m a s
  | .learnReference x p a => Sys2Proof.Machine.execLearnReference x p a s
  | .forget x p a => Sys2Proof.Machine.execForget x p a s
  | .setParameter x p m a => Sys2Proof.Machine.execSetParameter x p m a s
  | .readParameter x p m a => Sys2Proof.Machine.execReadParameter x p m a s
  | .readProfile x p m a => Sys2Proof.Machine.execReadProfile x p m a s
  | .zoneBegin x p m a => Sys2Proof.Machine.execZoneBegin x p m a s
  | .zonePutStart x p m a => Sys2Proof.Machine.execZonePutStart x p m a s
  | .zonePutField x p m a => Sys2Proof.Machine.execZonePutField x p m a s
  | .zoneCommit x p m a => Sys2Proof.Machine.execZoneCommit x p m a s
  | .zoneAbandon x p m a => Sys2Proof.Machine.execZoneAbandon x p m a s
  | .store x p m a => Sys2Proof.Machine.execStore x p m a s
  | .calLock x p m a => Sys2Proof.Machine.execCalLock x p m a s
  | .calErase x p m a => Sys2Proof.Machine.execCalErase x p m a s

end Sys2Proof.Machine
end

