-- ==== Sys2Proof/Machine/Tick.lean ====
section
/-! DEFINITION. What happens by itself: the events that are due at a moment, the samples that a
microsecond brings, and the passage of a microsecond (log entry 1). No event has its effect here: it
joins the commands that wait. -/

namespace Sys2Proof.Machine

/-! ## The events that are due -/

/-- The command, if it is due. -/
def dueCommand (b : Bool) (i : Instr) : List Instr := if b then [i] else []

/-- R186: the load completes no later than 12 ms after the release of reset (log entry 4). -/
def State.loadDue (s : State) : Bool :=
  !s.ready && (decide (12000 ≤ s.clock.now) || Config.loadDoneBy s.clock.now)

/-- R30: the record in progress completes at most 20 µs after the take (log entry 4). -/
def State.completionDue (s : State) : Bool :=
  match s.lde.busy with
  | some t => decide (t.since + 20 ≤ s.clock.now) || Config.ldeDoneBy (s.clock.now - t.since) s.fresh
  | none => false

/-- R30: a FIFO holds a record, and LDE is free or completes now: "it makes its next take at once". The take that
follows a completion is one of the events of its moment, in the free order (R168: "either may be taken first");
one that comes before the completion does nothing and is then due again (log entry 5). -/
def State.takeDue (s : State) : Bool := (s.lde.busy.isNone || s.completionDue) && s.nextServed.isSome

/-- NVC's operation has reached its completion time. -/
def State.jobDue (s : State) : Bool :=
  match s.nvc.busy with
  | some b => b.done ≤ s.clock.now
  | none => false

/-- The brake timer of `c` is due. -/
def State.brakeDue (s : State) (c : Chan) : Bool :=
  (s.ch c).moc.brakeRunning && decide ((s.ch c).moc.brakeExpiry ≤ s.clock.now)

/-- What is due on channel `c`. -/
def State.dueOn (s : State) (c : Chan) : List Instr :=
  dueCommand (due (s.ch c).moc.stall s.clock.now) (.stall c) ++
  dueCommand (s.brakeDue c) (.brakeExpiry c) ++
  dueCommand (due (s.refreshDeadline c) s.clock.now) (.refreshDeadlineExpiry c) ++
  dueCommand (due (s.waitDeadline c) s.clock.now) (.waitDeadlineExpiry c) ++
  dueCommand (due (s.ch c).auth.window s.clock.now) (.overrideWindowExpiry c)

/-- Every event that is due now. A write's read-back is open (log entry 7). -/
def State.dueNow (s : State) : List Instr :=
  dueCommand s.loadDue .startUpLoad ++
  dueCommand s.takeDue .ldeTake ++
  dueCommand s.completionDue .ldeCompletion ++
  dueCommand s.spacingDue .spacingTimerRunOut ++
  dueCommand (s.jobDue && !s.erasing) (.storeCompletion (Config.readBackValid s.fresh)) ++
  dueCommand (s.jobDue && s.erasing) .calEraseCompletion ++
  dueCommand s.sectorDue .sectorSwitch ++
  allChans.flatMap s.dueOn ++
  allClients.flatMap fun x => dueCommand (s.lapseDue x) (.lapseTimerExpiry x)

/-! ## Samples -/

/-- R3: one Hall sample of channel `c`; an acceptance joins the list. -/
def sampleHall (r : State × List Instr) (c : Chan) : State × List Instr :=
  if r.1.sampled c then
    let f := filterSample r.1.pins.hall[c] (r.1.ch c).hif
    (updHif c (fun _ => f.1) r.1, r.2 ++ (f.2.map fun p => Instr.hallAcceptance c p).toList)
  else r

/-- R3: the Hall inputs of every sampled channel, "once per timebase count". -/
def sampleHalls (s : State) : State × List Instr := allChans.foldl sampleHall (s, [])

/-- R18: the supply sense input, "once every 500 µs on the timebase". -/
def State.sampleSupply (s : State) : List Instr :=
  dueCommand (decide (s.clock.now % 500 = 0)) (.supplySample s.pins.supply)

/-! ## One microsecond -/

/-- Events of one moment in an order that is open: "either may be taken first" (log entry 5). The
first `n` are picked by the fresh number `f`. -/
def anyOrder : Nat → Nat → List Instr → List Instr
  | 0, _, l => l
  | _ + 1, _, [] => []
  | _ + 1, _, [i] => [i]
  | n + 1, f, l =>
    let k := Config.tieBreak f % l.length
    (l[k]?).toList ++ anyOrder n (f + 1) (l.eraseIdx k)

/-- Events of one moment join the commands that wait. -/
def enqueue (l : List Instr) (s : State) : State :=
  { s with pending := s.pending ++ anyOrder l.length s.fresh l, fresh := s.fresh + l.length }

/-- R13, R30: with a step accepted at this moment, LDE_TAKE is one of the moment's events, so that LDE may
take before the step's record joins its FIFO or after; taken while LDE is busy it does nothing, and the
take is then due again (log entry 5). -/
def takeAtArrival (l : List Instr) : List Instr := dueCommand (!l.isEmpty) .ldeTake

/-- One microsecond passes: the counters advance and the inputs are sampled (R2, R3, R18). R3 samples "once per timebase
count" and does not say whether count 0, at the release of reset, has a sample: here the first is at count 1 (DESIGN
CHOICE, log entry 41). -/
def passMicrosecond (s : State) : State :=
  let r := sampleHalls (elapse 1 s)
  enqueue (r.2 ++ takeAtArrival r.2 ++ r.1.sampleSupply ++ r.1.dueNow) r.1

/-- With no command waiting: the events that are due now wait as commands; with none due, a
microsecond passes. -/
def tick (s : State) : State :=
  match s.dueNow with
  | [] => passMicrosecond s
  | l => enqueue l s

end Sys2Proof.Machine
end

