-- ==== Sys2Proof/Safety.lean ====
section
/-! DEFINITION. What the statements are written in: the frames of a step, the states in which nothing
else is left to be done, and the invariants that every step keeps. -/

namespace Sys2Proof.Machine

/-! ## Frames -/

/-- Nothing but what CLI holds for the links changed. -/
def OnlyLinks (s t : State) : Prop := t = { s with links := t.links }

/-- Nothing but what CLI holds for link `x` changed. -/
def OnlyLink (x : Client) (s t : State) : Prop := OnlyLinks s t ∧ ∀ y, y ≠ x → t.link y = s.link y

/-- No channel but `c` changed. -/
def OnlyChannel (c : Chan) (s t : State) : Prop := ∀ d, d ≠ c → t.ch d = s.ch d

/-- The blocks that hold nothing per channel, per link or per group stand: time, pins, supply, load
estimator, global record, staging buffer, status bus, calibration memory, READY, and the model's own. -/
def SameDevice (s t : State) : Prop :=
  t.clock = s.clock ∧ t.pins = s.pins ∧ t.sup = s.sup ∧ t.lde = s.lde ∧ t.glob = s.glob ∧
  t.calLoaded = s.calLoaded ∧ t.staging = s.staging ∧ t.serial = s.serial ∧ t.ready = s.ready ∧
  t.stb = s.stb ∧ t.nvc = s.nvc ∧ t.fresh = s.fresh ∧ t.pending = s.pending

/-- The pending reply of link `x` is `r` with data `d` (R172). -/
def Replies (x : Client) (r : Result) (d : Word) (t : State) : Prop :=
  (t.link x).reply.result = r ∧ (t.link x).reply.data = d

/-- R171, R172: the state in which a valid frame of `x` is judged: the pending reply has been shifted
out and AUT has been told of the frame. -/
def received (x : Client) (s : State) : State := s |> shiftReply x |> noteValidFrame x

/-- Client `y` is sent every event of kind `k` about channel `c` (R180, R62). -/
def Hears (s : State) (y : Client) (k : EventKind) (c : Chan) : Prop :=
  s.populated c = true ∧ s.mayAct y c = true ∧ (s.link y).mask.getLsbD (eventCode k) = true

/-- The queue of `y` holds a record of this kind, channel, word 1 and detail, stamped now. -/
def Holds (t : State) (y : Client) (k : EventKind) (c : Option Chan) (word1 detail : Word) : Prop :=
  (⟨k, c, word1, detail, t.clock.ms⟩ : Event) ∈ (t.link y).queue

/-- R44: a channel at another's drive-on: if it is CLOSING, in a closing run past its run-up, its blank count
becomes its own Bn; nothing else of it changes. -/
def Channel.blanked (k : Channel) : Channel :=
  { k with ctx := { k.ctx with
    blank := if k.ctx.runDir = some .closing ∧ k.moc.motion = .closing ∧ k.cal.nr ≤ k.ctx.runUp then k.cal.bn
      else k.ctx.blank } }

/-- R44: what a drive-on of channel `c` does to the others. -/
def NeighboursBlanked (c : Chan) (s t : State) : Prop := ∀ d, d ≠ c → t.ch d = (s.ch d).blanked

/-- R12: `fifo` after the capture of `k`: a FIFO that holds 2 records has lost its head. -/
def captured (k : Capture) (fifo : List Capture) : List Capture :=
  (if 2 ≤ fifo.length then fifo.tail else fifo) ++ [k]

/-- R15, R62: what a channel holds once its populated flag has become `b`: HIF is as after a reset, the level is
NONE, the motion IDLE without a FAULT reason, the record is marked; the rest stands (log entry 31). -/
def Channel.repopulated (b : Bool) (k : Channel) : Channel :=
  { k with
    cal := { k.cal with populated := b, unsaved := true, changed := true }
    hif := ⟨none, none, 0, 0, false, [], false, 0, 0, 0⟩
    level := .noneKnown
    moc := { k.moc with motion := .idle, fault := none } }

/-! ## States in which an action leaves nothing for other channels to do -/

/-- No action is in progress, the start queue is empty and no channel is WAITING: a slot that is
released then goes to nobody, and no order's end resumes another channel. -/
def State.calm (s : State) : Prop :=
  s.agenda = [] ∧ s.startQueue = [] ∧ ∀ c, (s.ch c).moc.motion ≠ .waiting

/-! ## Invariants -/

/-- R181: a queue holds at most 16 records, and a lost counter stays within 0..255. -/
def LinkBounds (s : State) : Prop := ∀ x, (s.link x).queue.length ≤ 16 ∧ (s.link x).lost ≤ 255

/-- R7, R12, R6, R10, R11: the counter stays within −1024..5119, a FIFO holds at most 2 records, and
the three counts saturate at 255. -/
def HallBounds (s : State) : Prop :=
  ∀ c, -1024 ≤ (s.ch c).hif.pos ∧ (s.ch c).hif.pos ≤ 5119 ∧ (s.ch c).hif.fifo.length ≤ 2 ∧
    (s.ch c).hif.quadErrors ≤ 255 ∧ (s.ch c).hif.contrary ≤ 255 ∧ (s.ch c).hif.drift ≤ 255

/-- R42, R43: S stays within −1024..4095 and A within 0..65535. -/
def LoadBounds (s : State) : Prop :=
  ∀ c, -1024 ≤ (s.ch c).ctx.smoothed ∧ (s.ch c).ctx.smoothed ≤ 4095 ∧ (s.ch c).ctx.excess ≤ 65535

/-- Channel record `k` is in the row of the table of section 5.1 that its motion state names, with what
R76, R81, R82, R105 and R145 add to it, column by column: its order, its place in the start queue
(`queued`), its slot, its wait deadline and hold kind, its reversal target, its stall timer, its fault
reason, and the direction of the order that a drive is on for. -/
def Channel.inTable (k : Channel) (queued : Prop) : Prop :=
  (k.moc.order.isSome = true ↔ k.moc.motion ∈ [.queued, .brakingOrder, .closing, .opening, .waiting]) ∧
  (queued ↔ k.moc.motion = .queued) ∧
  (k.moc.slot = true ↔ k.moc.motion ∈ [.brakingOrder, .closing, .opening, .brakingPinch, .reversing]) ∧
  (k.moc.wait.isSome = true ↔ k.moc.motion = .waiting) ∧
  (k.hold ≠ .none ↔ k.moc.motion = .waiting) ∧
  (k.moc.revTarget.isSome = true ↔ k.moc.motion ∈ [.brakingPinch, .reversing]) ∧
  (k.moc.stall.isSome = true ↔ k.moc.motion ∈ [.closing, .opening, .reversing]) ∧
  (k.moc.fault.isSome = true ↔ k.moc.motion = .fault) ∧
  (k.moc.motion ∈ [.closing, .opening] → k.moc.order.map Order.dir = k.moc.motion.drive)

/-- R105: "every opening entry stands ahead of every closing entry" of the start queue. -/
def OpeningFirst (s : State) : Prop := s.startQueue.Pairwise fun a b => s.opens b = true → s.opens a = true

/-- Section 5.1, R76, R104, R105: every channel is in a row of the table, the start queue holds no channel
twice and its opening class ahead of its closing class, no more than Ns channels hold a slot (so, by the
table, no more than Ns drives are on), no channel has left IDLE or FAULT before READY (R76), and no action
is half done. -/
def MotionTable (s : State) : Prop :=
  (∀ c, (s.ch c).inTable (c ∈ s.startQueue)) ∧ s.startQueue.Nodup ∧ OpeningFirst s ∧
  s.slotCount ≤ s.glob.ns ∧ (s.ready = false → ∀ c, s.atRest c = true) ∧ s.agenda = []

/-- Section 4.3: the starts of zone records lie within 0..4063. -/
def startsInRange (zones : List Zone) : Prop := ∀ z ∈ zones, z.start ≤ 4063

/-- R64, R67: the staging buffer holds at most 6 records, with starts of at most 4063. -/
def StagingBounded (s : State) : Prop := s.staging.records.length ≤ 6 ∧ startsInRange s.staging.records

/-- R54, R57 and the tables of sections 4.1 and 4.3: every field of a channel record lies within its range,
the profile is present only while Lt is, with one value for each band, and the zone list is valid. -/
def CalRecord.valid (r : CalRecord) : Prop :=
  (∀ t, r.travel = some t → 256 ≤ t ∧ t ≤ 4064) ∧
  (∀ p, r.profile = some p →
    ∃ t, r.travel = some t ∧ p.length = bandTotal t ∧ ∀ b ∈ p, 200 ≤ b ∧ b ≤ 60000) ∧
  zonesValid r.zones = true ∧ startsInRange r.zones ∧
  (4 ≤ r.nr ∧ r.nr ≤ 64) ∧ (500 ≤ r.ru ∧ r.ru ≤ 65000) ∧ (200 ≤ r.pn ∧ r.pn ≤ 30000) ∧
  (16 ≤ r.rd ∧ r.rd ≤ 4064) ∧ r.floor ≤ 4064 ∧ r.ms ≤ 64 ∧ (16 ≤ r.jolt ∧ r.jolt ≤ 1024) ∧
  r.bn ≤ 32 ∧ (1 ≤ r.brake ∧ r.brake ≤ 16) ∧ r.gate ≤ 4064 ∧ r.requirement ≤ 4064 ∧
  r.adaptations ≤ 65535

/-- R58, R63: Ns and Ts of a global record lie within their ranges, and client 3 holds CALIBRATE. -/
def GlobalRecord.valid (g : GlobalRecord) : Prop :=
  (1 ≤ g.ns ∧ g.ns ≤ 4) ∧ (2 ≤ g.ts ∧ g.ts ≤ 20) ∧ g.rights[3].rights.getLsbD (rightBit .calibrate) = true

/-- The records that an operation of NVC in progress will store are valid. -/
def NvJob.valid : NvJob → Prop
  | .storeChannel _ r => r.valid
  | .storeGlobal g => g.valid
  | .lockWrite g => g.valid
  | .erase => True

/-- Every working record, every stored one and every snapshot of one is valid. -/
def RecordsValid (s : State) : Prop :=
  (∀ c, (s.ch c).cal.valid) ∧ (∀ c : Chan, s.nvc.channels[c].contents.valid) ∧
  s.glob.valid ∧ s.nvc.glob.contents.valid ∧ ∀ b, s.nvc.busy = some b → b.job.valid

end Sys2Proof.Machine
end

