-- ==== Sys2Proof/WellFormed.lean ====
section
/-! DEFINITION. Which terms of `Instr` are commands of the block at all.

Every term has a meaning in `exec`; these checks name the terms that no event or frame is. -/

namespace Sys2Proof

/-- R175: a request code the table of requests assigns. -/
def assignedCode (code : Byte) : Bool :=
  [0x00, 0x01, 0x02, 0x03, 0x04, 0x05, 0x06, 0x07, 0x08, 0x10, 0x11, 0x12, 0x20, 0x21, 0x22, 0x23,
   0x24, 0x30, 0x31, 0x32, 0x33, 0x38, 0x39, 0x3A, 0x3B, 0x3C, 0x40, 0x41, 0x42].contains code.toNat

/-- A supply reading lies within 0 to 2047 (R18); an undefined request code is one the table does
not assign (R175); a LEARN OPEN END command's modifier is not that of REFERENCE or FORGET. -/
def Instr.wellFormed : Instr → Bool
  | .supplySample r => r ≤ 2047
  | .undefinedRequestCode _ code => !assignedCode code
  | .learnOpenEnd _ _ m _ => m ≠ 1 && m ≠ 2
  | .resetN _ => true
  | .startUpLoad => true
  | .hallAcceptance _ _ => true
  | .ldeTake => true
  | .ldeCompletion => true
  | .stall _ => true
  | .brakeExpiry _ => true
  | .spacingTimerRunOut => true
  | .refreshDeadlineExpiry _ => true
  | .waitDeadlineExpiry _ => true
  | .overrideWindowExpiry _ => true
  | .lapseTimerExpiry _ => true
  | .storeCompletion _ => true
  | .calEraseCompletion => true
  | .sectorSwitch => true
  | .stselChange _ => true
  | .frameError _ => true
  | .nop _ _ _ _ => true
  | .move _ _ _ _ => true
  | .halt _ _ _ _ => true
  | .stopClaim _ _ _ _ => true
  | .stopRelease _ _ _ _ => true
  | .lockoutSet _ _ _ _ => true
  | .lockoutClear _ _ _ _ => true
  | .ackReversal _ _ _ _ => true
  | .panelRestart _ _ _ _ => true
  | .groupMove _ _ _ _ => true
  | .groupCancel _ _ _ _ => true
  | .readGroup _ _ _ _ => true
  | .readPanel _ _ _ _ => true
  | .readEvent _ _ _ _ => true
  | .popEvent _ _ _ _ => true
  | .setEventMask _ _ _ _ => true
  | .identify _ _ _ _ => true
  | .learnReference _ _ _ => true
  | .forget _ _ _ => true
  | .setParameter _ _ _ _ => true
  | .readParameter _ _ _ _ => true
  | .readProfile _ _ _ _ => true
  | .zoneBegin _ _ _ _ => true
  | .zonePutStart _ _ _ _ => true
  | .zonePutField _ _ _ _ => true
  | .zoneCommit _ _ _ _ => true
  | .zoneAbandon _ _ _ _ => true
  | .store _ _ _ _ => true
  | .calLock _ _ _ _ => true
  | .calErase _ _ _ _ => true

end Sys2Proof
end

