-- ==== Sys2Proof/Certificates/Slice0/Obligations.lean ====
section
/-! DEFINITION. The statements for the provers, each with the rules of spec/ it rests on.

In a statement about a request, `received x s` is the state in which it is judged (R171, R172) and
`setReply x r d` makes result `r` with data `d` the link's pending reply; both change link `x` alone
(`RequestsTouchOneLink`). -/

open Sys2Proof Sys2Proof.Machine

/-! ## The queue of commands -/

/-- The command at the front of the queue runs on the state with the queue's rest. -/
def Obligations.StepRunsTheFrontCommand : Prop :=
  ∀ (i : Instr) (rest : List Instr) (s : State),
    step { s with pending := i :: rest } = exec i { s with pending := rest }

/-- No command stops the device: each one, in every state, answers a next state. None touches the
commands that wait behind it (the model's queue, log entry 1), and every command that is not RESET_N leaves
the input pins that the device samples (the Hall pairs, the supply sense, STMODE; log entry 10) as they
are. -/
def Obligations.CommandsAnswerAndKeepQueueAndPins : Prop :=
  ∀ (i : Instr) (s : State), ∃ t, exec i s = .next t ∧
    t.pending = s.pending ∧
    ((∀ b, i ≠ .resetN b) → t.pins.hall = s.pins.hall ∧ t.pins.supply = s.pins.supply ∧
      t.pins.stmode = s.pins.stmode)

/-- Model's bookkeeping (log entry 12): an action that begins with nothing left to do ends so. -/
def Obligations.ActionsAreComplete : Prop :=
  ∀ (i : Instr) (s t : State), s.agenda = [] → exec i s = .next t → t.agenda = []

/-- R2, R3, R18: with nothing waiting and nothing due, one step is one microsecond: the timebase advances by
one, the millisecond counter when 1000 have passed since it last did; each sampled channel's pair filter
takes its Hall pair, so that the first sample after a reset is at count 1 (the model's, log entry 41), and nothing else
changes but the model's count of open choices and the queue of
commands, which takes, in some order, an acceptance for each channel whose pair is the fourth equal sample
(with LDE_TAKE, log entry 5), every 500 µs the supply sample, and the events then due. With nothing waiting
and something due, a step puts what is due into the queue, in some order, and changes nothing else
(log entries 1, 5). What is due: R51, R83, R122, R130, R134, R153, R111, R184, R30, R186; the take that follows a
completion is due with it (log entry 5). -/
def Obligations.IdleStepIsOneMicrosecond : Prop :=
  ∀ (s : State), s.pending = [] →
    (s.dueNow = [] →
      ∃ t, step s = .next t ∧ t.clock.now = s.clock.now + 1 ∧ t.clock.timebase = s.clock.timebase + 1 ∧
        (s.clock.msPhase < 999 → t.clock.ms = s.clock.ms ∧ t.clock.msPhase = s.clock.msPhase + 1) ∧
        (s.clock.msPhase = 999 → t.clock.ms = s.clock.ms + 1 ∧ t.clock.msPhase = 0) ∧
        t = { s with clock := t.clock, chans := t.chans, fresh := t.fresh, pending := t.pending } ∧
        (∀ c, t.ch c = { s.ch c with hif := { (s.ch c).hif with
          candidate := (t.ch c).hif.candidate, count := (t.ch c).hif.count } }) ∧
        (∀ c, (t.ch c).hif = if s.sampled c then (filterSample s.pins.hall[c] (s.ch c).hif).1 else (s.ch c).hif) ∧
        let accepted := allChans.flatMap fun c =>
          if s.sampled c then
            ((filterSample s.pins.hall[c] (s.ch c).hif).2.map fun p => Instr.hallAcceptance c p).toList
          else []
        let sample := if (s.clock.now + 1) % 500 = 0 then [Instr.supplySample s.pins.supply] else []
        t.pending.Perm (accepted ++ (if accepted = [] then [] else [.ldeTake]) ++ sample ++
          ({ s with clock := t.clock, chans := t.chans } : State).dueNow)) ∧
    (s.dueNow ≠ [] →
      ∃ t, step s = .next t ∧ t = { s with fresh := t.fresh, pending := t.pending } ∧
        t.pending.Perm s.dueNow) ∧
    (∀ c, (.stall c ∈ s.dueNow ↔ ∃ d, (s.ch c).moc.stall = some d ∧ d ≤ s.clock.now) ∧
      (.brakeExpiry c ∈ s.dueNow ↔
        (s.ch c).moc.brakeRunning = true ∧ (s.ch c).moc.brakeExpiry ≤ s.clock.now) ∧
      (.refreshDeadlineExpiry c ∈ s.dueNow ↔ ∃ o d, (s.ch c).moc.order = some o ∧ o.mode = .manual ∧
        o.refresh = some d ∧ d ≤ s.clock.now) ∧
      (.waitDeadlineExpiry c ∈ s.dueNow ↔ ∃ d, (s.ch c).moc.motion = .waiting ∧
        (s.ch c).moc.wait = some d ∧ d ≤ s.clock.now) ∧
      (.overrideWindowExpiry c ∈ s.dueNow ↔ ∃ d, (s.ch c).auth.window = some d ∧ d ≤ s.clock.now)) ∧
    (∀ x, .lapseTimerExpiry x ∈ s.dueNow ↔
      (s.link x).lapsed = false ∧ (s.link x).lastFrame + 1000000 ≤ s.clock.now) ∧
    (.spacingTimerRunOut ∈ s.dueNow ↔
      ∃ since, s.spacing = .armed since false ∧ since + 10000 * s.glob.ts ≤ s.clock.now) ∧
    (.sectorSwitch ∈ s.dueNow ↔
      s.ready = true ∧ s.stb.mode = .polled ∧ s.stb.since + 1000 ≤ s.clock.now) ∧
    (.ldeTake ∈ s.dueNow ↔
      (s.lde.busy = none ∨ .ldeCompletion ∈ s.dueNow) ∧ ∃ c, (s.ch c).hif.fifo ≠ []) ∧
    (∀ k, s.lde.busy = some k → k.since + 20 ≤ s.clock.now → .ldeCompletion ∈ s.dueNow) ∧
    (s.ready = false → 12000 ≤ s.clock.now → .startUpLoad ∈ s.dueNow) ∧
    (∀ b, s.nvc.busy = some b → b.done ≤ s.clock.now →
      (b.job = .erase → .calEraseCompletion ∈ s.dueNow) ∧
      (b.job ≠ .erase → ∃ valid, .storeCompletion valid ∈ s.dueNow))

/-! ## Invariants that every step keeps -/

/-- R181: the bounds of the event queues and lost counters. -/
def Obligations.LinkBoundsKept : Prop :=
  ∀ (s t : State), LinkBounds s → step s = .next t → LinkBounds t

/-- R7, R12, R6, R10, R11: the bounds of the counters and capture FIFOs. -/
def Obligations.HallBoundsKept : Prop :=
  ∀ (s t : State), HallBounds s → step s = .next t → HallBounds t

/-- R42, R43: the bounds of the smoothed load and the accumulator. -/
def Obligations.LoadBoundsKept : Prop :=
  ∀ (s t : State), LoadBounds s → step s = .next t → LoadBounds t

/-- R54, R57, R58, R64, sections 4.1 and 4.3: the ranges of the channel records and of the global record,
working, stored and in a snapshot, and of the staging buffer. -/
def Obligations.RecordsStayValid : Prop :=
  ∀ (s t : State), RecordsValid s → StagingBounded s → step s = .next t →
    RecordsValid t ∧ StagingBounded t

/-- R104, R76, R105, section 5.1: the number of slot holders never exceeds Ns, a channel with a drive on
holds a slot and an order or reversal of that direction, a channel is in the start queue exactly when it is
QUEUED, and the queue's opening class stands ahead of its closing class. -/
def Obligations.MotionTableKept : Prop :=
  ∀ (s t : State), MotionTable s → step s = .next t → MotionTable t

/-- The state after reset meets every invariant, and nothing is left to be done in it. -/
def Obligations.ResetMeetsTheInvariants : Prop :=
  LinkBounds State.reset ∧ HallBounds State.reset ∧ LoadBounds State.reset ∧ RecordsValid State.reset ∧
  StagingBounded State.reset ∧ MotionTable State.reset ∧ State.reset.calm

/-! ## Reset and start-up -/

/-- R2, R16, R22, R28, R55, R58, R64, R76, R103, R111, R115, R134, R137, R145, R155, R172, R181, R184, R186: what RESET_N leaves. Where no
operation of NVC was in progress the image stands; a STORE of a channel that the reset cuts off leaves
that record corrupt and the other eight as they were, and a cut-off write of the global record (STORE or
CAL LOCK) likewise (R189); a cut-off erase leaves the records it had blanked blank, in the order of R191, the
one in progress blank or corrupt, and the others as they were (how far it had come is free, log entry 8).
That the waiting commands and the input pins are kept, and that the model's count rises by one, is the
model's (log entries 1, 5, 10). So is, in `resetLde`, that a record between take and completion is forgotten (log
entry 38), and so are two kinds of value in `resetChannel`, `resetLink` and `emptyStaging`, which no rule gives: the
changed marks, the steps since the drive-on, the link shifter, the last reply shifted out and the channel that an
unowned staging buffer is bound to (log entry 17), and the brake expiry of 30 ms that stands before the load (log
entry 18); that a link forgets the span in progress and its last select rise is the model's too (log entry 40). -/
def Obligations.ResetLeavesResetValues : Prop :=
  ∀ (b : Bool) (s : State),
    ∃ t, exec (.resetN b) s = .next t ∧
      (∀ c, t.ch c = resetChannel) ∧ (∀ x, t.link x = resetLink) ∧ (∀ g, t.group g = none) ∧
      t.sup = resetSupply ∧ t.lde = resetLde ∧ t.glob = defaultGlobal ∧ t.calLoaded = false ∧
      t.ready = false ∧ t.startQueue = [] ∧ t.spacing = .unarmed ∧ t.staging = emptyStaging ∧
      t.serial = 0 ∧ t.clock = resetClock ∧ t.stb = resetBus b ∧ t.nvc.busy = none ∧
      (s.nvc.busy = none → t.nvc = s.nvc) ∧
      (∀ job c r, s.nvc.busy = some job → job.job = .storeChannel c r →
        t.nvc.channels[c].condition c.val = .corrupt ∧ t.nvc.glob = s.nvc.glob ∧
        ∀ d : Chan, d ≠ c → t.nvc.channels[d] = s.nvc.channels[d]) ∧
      (∀ job g, s.nvc.busy = some job → job.job = .storeGlobal g ∨ job.job = .lockWrite g →
        t.nvc.glob.condition globalNumber = .corrupt ∧ t.nvc.channels = s.nvc.channels) ∧
      (∀ job, s.nvc.busy = some job → job.job = .erase → ∃ n, n ≤ 8 ∧
        (0 < n → t.nvc.glob.condition globalNumber = .blank) ∧
        (n = 0 → t.nvc.glob.condition globalNumber = .blank ∨ t.nvc.glob.condition globalNumber = .corrupt) ∧
        ∀ c : Chan,
          (c.val + 1 < n → t.nvc.channels[c].condition c.val = .blank) ∧
          (c.val + 1 = n → t.nvc.channels[c].condition c.val = .blank ∨
            t.nvc.channels[c].condition c.val = .corrupt) ∧
          (n < c.val + 1 → t.nvc.channels[c] = s.nvc.channels[c])) ∧
      t.pending = s.pending ∧ t.pins = { s.pins with stmode := b } ∧ t.fresh = s.fresh + 1 ∧ t.agenda = []

/-- R186, R187: the start-up load completes: every working record is what its stored record gives (by its
condition: the stored values when valid, the erased defaults when blank or corrupt, unsaved only when
corrupt), without its companion, and unsaved, where the companion check of R186 finds the link bad (that every record takes its
values at the completion, and none before it, is the model's choice, log entry 39);
calibration is loaded, READY rises, the status bus begins with sector 0, every client of mask bit 15 is sent
STARTUP with one bit for each corrupt record, and a populated channel keeps its Hall state. -/
def Obligations.StartUpLoadCompletes : Prop :=
  ∀ (s : State), s.ready = false → s.agenda = [] →
    ∃ t, exec .startUpLoad s = .next t ∧ t.ready = true ∧ t.calLoaded = true ∧
      t.glob = loadGlobalRecord s.nvc.glob ∧ (∀ c, (t.ch c).cal = s.nvc.working c) ∧
      t.stb = { s.stb with sectorOne := false, since := s.clock.now } ∧
      (∀ y, (s.link y).mask.getLsbD 15 = true → Holds t y .startup none 0 s.nvc.corruptBits) ∧
      (∀ c, (s.nvc.working c).populated = true → (t.ch c).hif = (s.ch c).hif) ∧
      (∀ c, (s.nvc.working c).populated = false →
        (t.ch c).hif.pos = 0 ∧ (t.ch c).hif.posValid = false ∧ (t.ch c).hif.phase = none ∧
        (t.ch c).level = .noneKnown) ∧
      (∀ (n : Nat) (r : Stored CalRecord),
        (r.version = 2 ∧ r.number = n ∧ r.sumOk = true →
          loadChannelRecord n r = { r.contents with unsaved := false, changed := false }) ∧
        (r.version ≠ 2 ∨ r.number ≠ n → loadChannelRecord n r = defaultCal) ∧
        (r.version = 2 ∧ r.number = n ∧ r.sumOk = false →
          loadChannelRecord n r = { defaultCal with unsaved := true })) ∧
      (let loaded := fun c : Chan => loadChannelRecord c.val s.nvc.channels[c]
       ∀ p,
        ((loaded p).companion = none → s.nvc.working p = loaded p) ∧
        (∀ c, (loaded p).companion = some c →
          ((loaded c).populated = false ∨ (loaded c).companion ≠ none ∨ (loaded p).populated = false ∨
              (∃ q, q ≠ p ∧ (loaded q).companion = some p) →
            s.nvc.working p = { loaded p with companion := none, unsaved := true }) ∧
          ((loaded c).populated = true → (loaded c).companion = none → (loaded p).populated = true →
              (∀ q, q ≠ p → (loaded q).companion ≠ some p) →
            s.nvc.working p = loaded p))) ∧
      (∀ g : Stored GlobalRecord,
        (g.version = 2 ∧ g.number = 15 ∧ g.sumOk = true →
          loadGlobalRecord g = { g.contents with unsaved := false, changed := false }) ∧
        (g.version ≠ 2 ∨ g.number ≠ 15 → loadGlobalRecord g = defaultGlobal) ∧
        (g.version = 2 ∧ g.number = 15 ∧ g.sumOk = false →
          loadGlobalRecord g = { defaultGlobal with unsaved := true })) ∧
      (∀ c : Chan, s.nvc.corruptBits.getLsbD c.val = true ↔
        s.nvc.channels[c].version = 2 ∧ s.nvc.channels[c].number = c.val ∧ s.nvc.channels[c].sumOk = false) ∧
      (s.nvc.corruptBits.getLsbD 8 = true ↔
        s.nvc.glob.version = 2 ∧ s.nvc.glob.number = 15 ∧ s.nvc.glob.sumOk = false) ∧
      s.nvc.corruptBits.extractLsb' 9 7 = 0 ∧
      t.nvc = s.nvc ∧ t.clock = s.clock ∧ t.sup = s.sup

/-! ## Frames, replies and requests -/

/-- R169, R171, R175: the frame that spells a request is decoded as that request, with every operand at
every value. -/
def Obligations.DecodeOfEncode : Prop :=
  ∀ (i : Instr) (x : Client) (f : BitVec 40), i.wellFormed = true → encodeFrame i = some (x, f) →
    decodeFrame x f = i

/-- R169, R171, R174: the bytes of a reply frame: status, result code, data high, data low, and a check
byte that makes the five sum to 0. -/
def Obligations.ReplyFramesAreLaidOut : Prop :=
  ∀ (st : Byte) (r : Result) (d : Word),
    frameByte 1 (replyFrame st r d) = st ∧
    frameByte 2 (replyFrame st r d) = (match r with
      | .none => 0 | .done => 1 | .accepted => 2 | .busy => 3 | .notPermitted => 4 | .lockedOut => 5
      | .claimed => 6 | .unlearned => 7 | .supply => 8 | .inhibited => 9 | .calLocked => 10
      | .badArgument => 11 | .frameError => 12 | .notReady => 13 | .empty => 14) ∧
    frameByte 3 (replyFrame st r d) = d.extractLsb' 8 8 ∧
    frameByte 4 (replyFrame st r d) = d.extractLsb' 0 8 ∧
    frameSumOk (replyFrame st r d) = true

/-- R171, R172, R134: what a valid frame does to its link whatever it asks: the pending reply is shifted
out, the lapse timer is set, the client is not lapsed; the new reply takes its status byte now. `received`
and `setReply` touch no other state, and no request touches more of another link than its event queue and
lost counter. A frame of wrong length or sum also shifts the reply out, becomes FRAME_ERROR with data 0, and
is not reported for the lapse timer. R175: a valid frame with an unassigned request code is answered
BAD_ARGUMENT at all times. R173: the bits of the status byte. R170: the wires of a link. Clocks while select is high do
nothing. From the fall of select the pending reply goes out, bit 39 first, and zeros after the 40th clock; when select
rises after exactly 40 clocks, in a span that began 2 µs or more after the previous rise, the bits, the first highest,
are the frame that is decoded; another number of clocks, or a span that began sooner, is a FRAME_ERROR; a span with no
clock changes neither the reply nor the waiting commands. R172: the status byte of the reply a reset leaves is taken at
the fall, and stays once the first clock makes the span a frame. Nothing but the link's shifter, that status byte and the
waiting commands changes. The model's: the wires are no commands, nothing else happens during the span, and the frame
joins the tail of the waiting commands (log entry 20); the rise of an empty span counts for the 2 µs (log 36); the first
bit is out from the fall (log 37). -/
def Obligations.RequestsTouchOneLink : Prop :=
  ∀ (x : Client) (r : Result) (d : Word) (s : State),
    OnlyLink x s (setReply x r d (received x s)) ∧
    ((setReply x r d (received x s)).link x).sent = s.nextReply x ∧
    ((setReply x r d (received x s)).link x).lastFrame = s.clock.now ∧
    ((setReply x r d (received x s)).link x).lapsed = false ∧
    ((setReply x r d (received x s)).link x).queue = (s.link x).queue ∧
    ((setReply x r d (received x s)).link x).reply = ⟨some (s.statusByte x), r, d⟩ ∧
    (∃ t, exec (.frameError x) s = .next t ∧ OnlyLink x s t ∧
      t.link x = { s.link x with sent := s.nextReply x, reply := ⟨some (s.statusByte x), .frameError, 0⟩ } ∧
      ∀ code, s.agenda = [] → exec (.undefinedRequestCode x code) s =
        .next (setReply x .badArgument 0 (received x s))) ∧
    (∀ (i : Instr) (code : Byte) (p m : BitVec 4) (a : Word) (t : State),
      requestFields i = some (x, code, p, m, a) → exec i s = .next t →
      (t.link x).sent = s.nextReply x ∧ (t.link x).lastFrame = s.clock.now ∧ (t.link x).lapsed = false ∧
      (t.link x).shifter = (s.link x).shifter ∧ (t.link x).reply.status = some (t.statusByte x) ∧
      ∀ y, y ≠ x → t.link y = { s.link y with queue := (t.link y).queue, lost := (t.link y).lost }) ∧
    (s.statusByte x).getLsbD 7 = s.ready ∧
    (s.statusByte x).getLsbD 6 = decide ((s.link x).queue ≠ []) ∧
    (s.statusByte x).getLsbD 5 = decide ((s.link x).lost ≠ 0) ∧
    (s.statusByte x).getLsbD 4 = s.nvc.busy.isSome ∧
    (s.statusByte x).getLsbD 3 = s.glob.locked ∧
    (s.statusByte x).extractLsb' 1 2 = (match s.sup.state with
      | .normal => 0 | .low => 1 | .high => 2 | .crank => 3) ∧
    ((s.statusByte x).getLsbD 0 = true ↔ ∃ c, (s.ch c).moc.motion = .fault) ∧
    ((s.link x).shifter.selected = false → (∀ b, clockLink x b s = s) ∧ selectRises x s = s) ∧
    (∀ bits : List Bool,
      let t := bits.foldl (fun u b => clockLink x b u) (selectFalls x s)
      let u := selectRises x t
      let rightGap := ∀ rise, (s.link x).shifter.lastRise = some rise → rise + 2 ≤ s.clock.now
      let status := (s.link x).reply.status
      (t.link x).shifter.selected = true ∧ OnlyLink x s t ∧ t.pending = s.pending ∧
      (t.link x).shifter.dataOut =
        (if bits.length < 40 then (s.nextReply x).getLsbD (39 - bits.length) else false) ∧
      (u.link x).shifter.selected = false ∧ (u.link x).shifter.lastRise = some s.clock.now ∧
      OnlyLink x s { u with pending := s.pending } ∧
      u.link x = { s.link x with
        shifter := (u.link x).shifter
        reply := { (s.link x).reply with
          status := if bits = [] then status else some (status.getD (s.statusByte x)) } } ∧
      (bits = [] → u.pending = s.pending) ∧
      (bits.length = 40 → rightGap → ∃ f : BitVec 40,
        (∀ i, i < 40 → bits[i]? = some (f.getLsbD (39 - i))) ∧ u.pending = s.pending ++ [decodeFrame x f]) ∧
      (bits ≠ [] → bits.length ≠ 40 ∨ ¬ rightGap → u.pending = s.pending ++ [.frameError x]))

/-- R175, R187: until READY every request that the table of requests names, but NOP, IDENTIFY, READ
EVENT and POP EVENT, is answered NOT_READY with nothing else changed. -/
def Obligations.NotReadyRefusesRequests : Prop :=
  ∀ (i : Instr) (s : State) (x : Client) (code : Byte) (p m : BitVec 4) (a : Word),
    s.ready = false → s.agenda = [] → i.wellFormed = true → requestFields i = some (x, code, p, m, a) →
    assignedCode code = true → code ≠ 0x00 → code ≠ 0x21 → code ≠ 0x22 → code ≠ 0x24 →
    exec i s = .next (setReply x .notReady 0 (received x s))

/-- R172, R59, R64, R117, R138, R159, R160: a request whose answer is neither DONE nor ACCEPTED changes
nothing but its own link. -/
def Obligations.RefusedRequestsChangeNothing : Prop :=
  ∀ (i : Instr) (s t : State) (x : Client) (code : Byte) (p m : BitVec 4) (a : Word),
    s.agenda = [] → requestFields i = some (x, code, p, m, a) → exec i s = .next t →
    (t.link x).reply.result ≠ .done → (t.link x).reply.result ≠ .accepted →
    OnlyLink x s t

/-- R178: NOP answers DONE with data 0; IDENTIFY answers the word its modifier selects, and
BAD_ARGUMENT for a modifier of 8 or above; both at all times. -/
def Obligations.NopAndIdentifyAnswer : Prop :=
  ∀ (x : Client) (p m : BitVec 4) (a : Word) (s : State), s.agenda = [] →
    exec (.nop x p m a) s = .next (setReply x .done 0 (received x s)) ∧
    (8 ≤ m.toNat → exec (.identify x p m 0) s = .next (setReply x .badArgument 0 (received x s))) ∧
    exec (.identify x p 0 0) s = .next (setReply x .done 0x5E86 (received x s)) ∧
    exec (.identify x p 1 0) s = .next (setReply x .done 0x0003 (received x s)) ∧
    exec (.identify x p 2 0) s =
      .next (setReply x .done (Config.uniqueNumber.extractLsb' 48 16) (received x s)) ∧
    exec (.identify x p 3 0) s =
      .next (setReply x .done (Config.uniqueNumber.extractLsb' 32 16) (received x s)) ∧
    exec (.identify x p 4 0) s =
      .next (setReply x .done (Config.uniqueNumber.extractLsb' 16 16) (received x s)) ∧
    exec (.identify x p 5 0) s =
      .next (setReply x .done (Config.uniqueNumber.extractLsb' 0 16) (received x s)) ∧
    exec (.identify x p 6 0) s = .next (setReply x .done 0x0002 (received x s)) ∧
    exec (.identify x p 7 0) s = .next (setReply x .done
      (if s.ready then maskWord (maskWhere fun c => (s.ch c).cal.populated) else 0) (received x s))

/-- R60, R71, R143, R177: the reading requests answer DONE with the field as it stands and change
nothing but their link: READ PANEL (R177: the field of each selector, its bits spelled out, and with selector 15
the latest supply reading for any channel number; R136, R150: the milliseconds remaining are truncated, log entry
24), READ PARAMETER (each selector of a channel, populated or not, and of the global record), READ PROFILE (band, each
zone field, counts) and READ GROUP (owner and serial, direction and origin, members, those with a final outcome, one
member's outcome: PENDING 24, RUNNING 25, REACHED 26, REVERSED 27, SKIPPED 28 with the admission result, or the code of
the order's end; a member that a GROUP MOVE has still to judge, which no frame meets, reads as PENDING, log entry 26).
A channel, selector, index or modifier outside its range is BAD_ARGUMENT; an absent profile, a free entry and a channel
that is no member are EMPTY. -/
def Obligations.ReadsAnswerTheField : Prop :=
  ∀ (x : Client) (p m : BitVec 4) (a : Word) (c : Chan) (s : State), s.agenda = [] → s.ready = true →
    exec (.readPanel x p 15 0) s = .next (setReply x .done (natWord s.sup.reading) (received x s)) ∧
    (chanOf p = none → m ≠ 15 → exec (.readPanel x p m 0) s = .next (setReply x .badArgument 0 (received x s))) ∧
    (let panel := fun (n : BitVec 4) (w : Word) =>
       exec (.readPanel x p n 0) s = .next (setReply x .done w (received x s))
     let k := s.ch c
     let msTo := fun (n : BitVec 4) (deadline : Option Nat) => (deadline = none → panel n 0) ∧
       ∀ d, deadline = some d → panel n (BitVec.ofNat 16 ((d - s.clock.now) / 1000))
     chanOf p = some c → panel 0 (BitVec.ofInt 16 k.hif.pos) ∧
      (s.startQueue.Nodup → ∃ w, panel 1 w ∧
        w.extractLsb' 12 4 = (match k.moc.motion with
          | .idle => 0 | .queued => 1 | .brakingOrder => 2 | .brakingPinch => 3 | .closing => 4
          | .opening => 5 | .reversing => 6 | .waiting => 7 | .fault => 8) ∧
        w.extractLsb' 10 2 = (match k.level with
          | .noneKnown => 0 | .closedKnown => 1 | .endsKnown => 2 | .learned => 3) ∧
        w.extractLsb' 8 2 = (match k.hold with | .none => 0 | .leader => 1 | .follower => 2) ∧
        w.extractLsb' 4 4 = (match k.moc.fault with
          | none => 0 | some .quad => 1 | some .wiring => 2 | some .range => 3 | some .noSteps => 4) ∧
        (c ∉ s.startQueue → w.extractLsb' 0 4 = 0) ∧
        ∀ i : Fin 8, s.startQueue[i.val]? = some c → w.extractLsb' 0 4 = BitVec.ofNat 4 (i.val + 1)) ∧
      (k.auth.overrideLevel ≤ 3 → ∃ w, panel 2 w ∧
        w.getLsbD 0 = k.hif.posValid ∧ w.getLsbD 1 = k.moc.latched ∧ w.getLsbD 2 = k.auth.inhibit ∧
        w.getLsbD 3 = k.cal.unsaved ∧ w.getLsbD 4 = k.moc.slot ∧ w.getLsbD 5 = k.moc.brakeRunning ∧
        w.extractLsb' 6 2 = BitVec.ofNat 2 k.auth.overrideLevel ∧ w.extractLsb' 8 4 = k.auth.claims ∧
        (k.auth.lockouts = 0 → w.extractLsb' 12 3 = 0) ∧
        (∀ y : Client, k.auth.lockouts = 1 <<< y.val →
          w.extractLsb' 12 2 = BitVec.ofNat 2 y.val ∧ w.getLsbD 14 = true) ∧
        w.getLsbD 15 = false) ∧
      (k.moc.order = none → panel 3 0 ∧ panel 4 0xFFFE ∧ panel 5 0 ∧ panel 13 0) ∧
      (∀ o, k.moc.order = some o → panel 4 (match o.target with | .toEnd => 0xFFFF | .pos q => natWord q) ∧
        panel 5 o.accepted ∧ msTo 13 o.refresh ∧
        (o.k ≤ 3 → ∃ w, panel 3 w ∧
          w.getLsbD 0 = true ∧ w.getLsbD 1 = decide (o.dir = .opening) ∧ w.getLsbD 2 = decide (o.mode = .auto) ∧
          w.getLsbD 3 = decide (o.origin = .remoteReq) ∧ w.extractLsb' 4 2 = BitVec.ofNat 2 o.k ∧
          w.extractLsb' 6 2 = (match o.phase with
            | .notLearning => 0 | .openEnd => 1 | .refOpening => 2 | .refClosing => 3) ∧
          w.extractLsb' 8 3 = (match o.mover with
            | .client => BitVec.ofNat 3 o.client.val
            | .group g => BitVec.ofNat 3 g.val
            | .companion q => BitVec.ofNat 3 q.val
            | .learn => BitVec.ofNat 3 o.client.val) ∧
          w.extractLsb' 11 2 = (match o.mover with
            | .client => 0 | .group _ => 1 | .companion _ => 2 | .learn => 3) ∧
          w.extractLsb' 13 3 = 0)) ∧
      (k.moc.revTarget = none → panel 6 0xFFFE) ∧
      (∀ q, k.moc.revTarget = some q → panel 6 (BitVec.ofInt 16 q)) ∧
      panel 7 (BitVec.ofInt 16 k.ctx.smoothed) ∧ panel 8 (BitVec.ofNat 16 k.ctx.excess) ∧
      panel 9 (BitVec.ofNat 8 k.hif.quadErrors ++ BitVec.ofNat 8 k.hif.contrary) ∧
      panel 10 (BitVec.ofNat 8 k.hif.drift ++ BitVec.ofNat 8 k.moc.noStep) ∧
      panel 11 (BitVec.ofNat 8 k.ctx.joltCount ++ BitVec.ofNat 8 k.ctx.gapCount) ∧
      msTo 12 k.auth.window ∧ msTo 14 k.moc.wait) ∧
    (let reads := fun (n : Nat) (v : Nat) => m.toNat = n →
       exec (.readParameter x p m 0) s = .next (setReply x .done (natWord v) (received x s))
     let r := (s.ch c).cal
     chanOf p = some c →
      reads 0 (if r.populated then 1 else 0) ∧ reads 1 r.nr ∧ reads 2 r.ru ∧ reads 3 r.pn ∧ reads 4 r.rd ∧
      reads 5 r.floor ∧ reads 6 r.ms ∧ reads 7 r.jolt ∧ reads 8 r.bn ∧ reads 9 r.brake ∧
      reads 10 (match r.polarity with | .activeHigh => 0 | .activeLow => 1) ∧
      reads 11 (match r.companion with | none => 15 | some q => q.val) ∧
      reads 12 r.gate ∧ reads 13 r.requirement ∧
      reads 14 (match r.travel with | none => 0 | some lt => lt) ∧ reads 15 r.adaptations) ∧
    (let reads := fun (n : Nat) (w : Word) => m.toNat = n →
       exec (.readParameter x 15 m 0) s = .next (setReply x .done w (received x s))
     reads 0 (natWord s.glob.ns) ∧ reads 1 (natWord s.glob.ts) ∧
      (∃ w, reads 2 w ∧ w.extractLsb' 8 8 = 0 ∧ ∀ d : Chan, w.getLsbD d.val = (s.ch d).cal.populated) ∧
      (∀ y : Client, reads (3 + y.val) (s.glob.rights[y].panels ++ (0 : BitVec 3) ++ s.glob.rights[y].rights)) ∧
      reads 7 (if s.glob.locked then 1 else 0) ∧ reads 8 (if s.glob.unsaved then 1 else 0) ∧
      (9 ≤ m.toNat →
        exec (.readParameter x 15 m 0) s = .next (setReply x .badArgument 0 (received x s)))) ∧
    (chanOf p = none → p ≠ 15 →
      exec (.readParameter x p m 0) s = .next (setReply x .badArgument 0 (received x s))) ∧
    (let answers := fun (n : BitVec 4) (r : Result) (w : Word) =>
       exec (.readProfile x p n a) s = .next (setReply x r w (received x s))
     (chanOf p = none → answers m .badArgument 0) ∧
      (chanOf p = some c → (s.ch c).cal.populated = false → answers m .badArgument 0) ∧
      (chanOf p = some c → (s.ch c).cal.populated = true →
        (∀ bands, (s.ch c).cal.profile = some bands →
          (∀ b, bands[a.toNat]? = some b → answers 0 .done (natWord b)) ∧
          (bands.length ≤ a.toNat → answers 0 .badArgument 0)) ∧
        ((s.ch c).cal.profile = none → answers 0 .empty 0) ∧
        (∀ z, (s.ch c).cal.zones[a.toNat]? = some z →
          answers 1 .done (natWord z.start) ∧
          answers 2 .done (match z.kind with | .seal => 0 | .guard => 1 | .watch => 2) ∧
          answers 3 .done (natWord z.t) ∧ answers 4 .done (natWord z.e) ∧ answers 5 .done (natWord z.h)) ∧
        ((s.ch c).cal.zones.length ≤ a.toNat → 1 ≤ m.toNat → m.toNat ≤ 5 → answers m .badArgument 0) ∧
        answers 6 .done (bytesWord (s.ch c).cal.zones.length
          (match (s.ch c).cal.travel with | none => 0 | some lt => (lt + 31) / 32)) ∧
        (7 ≤ m.toNat → answers m .badArgument 0))) ∧
    (let answers := fun (n : BitVec 4) (r : Result) (w : Word) =>
       exec (.readGroup x 15 n a) s = .next (setReply x r w (received x s))
     let n := BitVec.ofNat 4 (4 + c.val)
     (12 ≤ m.toNat → answers m .badArgument 0) ∧ (3 < a.toNat → answers m .badArgument 0) ∧
      (p ≠ 15 → exec (.readGroup x p m a) s = .next (setReply x .badArgument 0 (received x s))) ∧
      (∀ g, groupIndex a.toNat = some g → s.group g = none → m.toNat < 12 → answers m .empty 0) ∧
      ∀ g e, groupIndex a.toNat = some g → s.group g = some e →
        answers 0 .done (bytesWord e.owner.val e.serial) ∧
        answers 1 .done
          (bytesWord (if e.dir = .opening then 1 else 0) (if e.origin = .remoteReq then 1 else 0)) ∧
        answers 2 .done (maskWord (maskWhere fun d => e.members[d].isSome)) ∧
        answers 3 .done (maskWord (maskWhere fun d =>
          decide (e.members[d] ≠ none ∧ e.members[d] ≠ some .live ∧ e.members[d] ≠ some .toJudge))) ∧
        (e.members[c] = none → answers n .empty 0) ∧
        (e.members[c] = some .live →
          answers n .done (if (s.ch c).moc.motion = .queued then 0x1800 else 0x1900)) ∧
        (e.members[c] = some .reached → answers n .done 0x1A00) ∧
        (e.members[c] = some .reversed → answers n .done 0x1B00) ∧
        (∀ r, e.members[c] = some (.skipped r) → answers n .done (match r with
          | .none => 0x1C00 | .done => 0x1C01 | .accepted => 0x1C02 | .busy => 0x1C03 | .notPermitted => 0x1C04
          | .lockedOut => 0x1C05 | .claimed => 0x1C06 | .unlearned => 0x1C07 | .supply => 0x1C08
          | .inhibited => 0x1C09 | .calLocked => 0x1C0A | .badArgument => 0x1C0B | .frameError => 0x1C0C
          | .notReady => 0x1C0D | .empty => 0x1C0E)) ∧
        (∀ o, e.members[c] = some (.ended o) → answers n .done (match o with
          | .target => 0x0000 | .closedEnd => 0x0100 | .openEnd => 0x0200 | .released => 0x0300
          | .halted => 0x0400 | .replaced => 0x0500 | .claimed => 0x0600 | .lockedOut => 0x0700
          | .pinch => 0x0800 | .obstructed => 0x0900 | .supply => 0x0A00 | .companionBlocked => 0x0B00
          | .clamped => 0x0C00 | .fault => 0x0D00 | .restart => 0x0E00 | .cancelled => 0x0F00)) ∧
        (e.members[c] = some .toJudge → answers n .done 0x1800))

/-! ## Events -/

/-- R179, R180, R181, R62: posting an event changes the queues alone: each client whose event mask has
the kind's bit and, for an event of a channel, whose panel mask has the channel (unless the event is its own
CLIENT_LAPSE) holds the record at the tail of its queue, a full queue having dropped its head and raised the
lost counter; the others' queues stand; nothing is posted for an unpopulated channel. -/
def Obligations.PostDeliversToSelectors : Prop :=
  ∀ (k : EventKind) (c : Chan) (w d : Word) (s : State) (y : Client),
    OnlyLinks s (post k (some c) w d s) ∧
    (¬ Hears s y k c ∨ (k = .clientLapse ∧ d = natWord y.val) →
      (post k (some c) w d s).link y = s.link y) ∧
    (Hears s y k c → k ≠ .clientLapse → (s.link y).queue.length < 16 →
      (post k (some c) w d s).link y =
        { s.link y with queue := (s.link y).queue ++ [⟨k, some c, w, d, s.clock.ms⟩] }) ∧
    (Hears s y k c → k ≠ .clientLapse → 16 ≤ (s.link y).queue.length →
      (post k (some c) w d s).link y =
        { s.link y with
          queue := (s.link y).queue.tail ++ [⟨k, some c, w, d, s.clock.ms⟩]
          lost := min 255 ((s.link y).lost + 1) }) ∧
    OnlyLinks s (post k none w d s) ∧
    ((s.link y).mask.getLsbD (eventCode k) = false ∨ (k = .clientLapse ∧ d = natWord y.val) →
      (post k none w d s).link y = s.link y) ∧
    ((s.link y).mask.getLsbD (eventCode k) = true → ¬ (k = .clientLapse ∧ d = natWord y.val) →
      ((s.link y).queue.length < 16 → (post k none w d s).link y =
        { s.link y with queue := (s.link y).queue ++ [⟨k, none, w, d, s.clock.ms⟩] }) ∧
      (16 ≤ (s.link y).queue.length → (post k none w d s).link y =
        { s.link y with
          queue := (s.link y).queue.tail ++ [⟨k, none, w, d, s.clock.ms⟩]
          lost := min 255 ((s.link y).lost + 1) }))

/-- R182: READ EVENT answers a word of the head and leaves the record, or the lost counter, which it clears, or EMPTY; a
modifier of 5 or above, or an argument, is BAD_ARGUMENT. R179: word 0 has the code of the record's kind in bits 15 to 8,
zeros in bits 7 to 4 and the channel, or 15 for none, in bits 3 to 0; word 1, the detail and the millisecond counter of
the posting follow. POP EVENT removes the head and answers how many records are left; SET EVENT MASK replaces the mask
and answers it; R175: a modifier, or an argument of POP EVENT, is BAD_ARGUMENT. The channel of all three is ignored. -/
def Obligations.EventRequestsAct : Prop :=
  ∀ (x : Client) (p m : BitVec 4) (a : Word) (s : State), s.agenda = [] →
    (let answers := fun (i : Instr) (r : Result) (w : Word) => exec i s = .next (setReply x r w (received x s))
     (∀ e rest, (s.link x).queue = e :: rest →
       (∃ w : Word,
         w.extractLsb' 8 8 = (match e.kind with
           | .pinch => 0 | .reversalEnd => 1 | .moveEnded => 2 | .endReached => 3 | .positionCorrected => 4
           | .drift => 5 | .quadError => 6 | .channelFault => 7 | .supplyState => 8 | .levelChanged => 9
           | .learnDone => 10 | .learnFailed => 11 | .groupDone => 12 | .storeDone => 13 | .clientLapse => 14
           | .startup => 15) ∧
         w.extractLsb' 4 4 = 0 ∧
         (∀ c : Chan, e.chan = some c → w.extractLsb' 0 4 = BitVec.ofNat 4 c.val) ∧
         (e.chan = none → w.extractLsb' 0 4 = 15) ∧ answers (.readEvent x p 0 0) .done w) ∧
       answers (.readEvent x p 1 0) .done e.word1 ∧ answers (.readEvent x p 2 0) .done e.detail ∧
       answers (.readEvent x p 3 0) .done e.stamp) ∧
     ((s.link x).queue = [] → m.toNat ≤ 3 → answers (.readEvent x p m 0) .empty 0) ∧
     (5 ≤ m.toNat ∨ a ≠ 0 → answers (.readEvent x p m a) .badArgument 0) ∧
     ((s.link x).queue = [] → answers (.popEvent x p 0 0) .empty 0) ∧
     (m ≠ 0 ∨ a ≠ 0 → answers (.popEvent x p m a) .badArgument 0) ∧
     (s.ready = true → m ≠ 0 → answers (.setEventMask x p m a) .badArgument 0)) ∧
    exec (.readEvent x p 4 0) s = .next (setReply x .done (natWord (s.link x).lost)
      (updLink x (fun l => { l with lost := 0 }) (received x s))) ∧
    (∀ e rest, (s.link x).queue = e :: rest →
      exec (.popEvent x p 0 0) s = .next (setReply x .done (natWord rest.length)
        (updLink x (fun l => { l with queue := rest }) (received x s)))) ∧
    (s.ready = true →
      exec (.setEventMask x p 0 a) s = .next (setReply x .done a
        (updLink x (fun l => { l with mask := a }) (received x s))))

/-! ## Hall inputs -/

/-- R3: a pair that differs from the accepted one is accepted at the fourth consecutive equal sample and
not before; a sample equal to the accepted pair clears the candidate. -/
def Obligations.FourthEqualSampleAccepts : Prop :=
  ∀ (h : Hif) (pair : Pair), h.phase ≠ some pair → h.candidate ≠ some pair →
    (filterSample pair h).2 = none ∧
    (filterSample pair (filterSample pair h).1).2 = none ∧
    (filterSample pair (filterSample pair (filterSample pair h).1).1).2 = none ∧
    (filterSample pair (filterSample pair (filterSample pair (filterSample pair h).1).1).1).2 = some pair ∧
    (∀ q, h.phase = some q → filterSample q h = ({ h with candidate := none, count := 0 }, none))

/-- R4, R5, R9, R11: an acceptance on a channel whose drive is off: the acquisition sets the phase and
nothing more; a step moves the counter by one in its direction and, as a coast step, does nothing more,
as a drift step counts in the drift count, up to 255; the sixteenth also posts DRIFT with detail 16 and the
position after it. R7, R97, R98, R158, with the drive on or off: a step that would pass −1024 or 5119 leaves the
counter there, makes no record, clears the position-valid flag, faults the channel with reason RANGE (a channel in
FAULT keeps its reason) and lowers the level to NONE; an order or a reversal ends FAULT, an order ahead of the
level change (R118). No other channel waits or is queued. -/
def Obligations.StepsWithTheDriveOff : Prop :=
  (∀ (s : State) (c : Chan) (pair : Pair), s.agenda = [] → s.ready = true →
    (s.ch c).cal.populated = true → (s.ch c).moc.motion.drive = none →
    ((s.ch c).hif.phase = none →
      exec (.hallAcceptance c pair) s = .next (updHif c (fun h =>
        { h with phase := some pair, candidate := none, count := 0 }) s)) ∧
    (∀ old d, (s.ch c).hif.phase = some old → stepDir old pair = some d →
      -1024 ≤ (s.ch c).hif.pos + stepDelta d → (s.ch c).hif.pos + stepDelta d ≤ 5119 →
      (s.coasting c = true →
        exec (.hallAcceptance c pair) s = .next (updHif c (fun h =>
          { h with phase := some pair, candidate := none, count := 0, pos := h.pos + stepDelta d }) s)) ∧
      (s.coasting c = false →
        let counted := updHif c (fun h =>
          { h with phase := some pair, candidate := none, count := 0, pos := h.pos + stepDelta d,
                   drift := min 255 (h.drift + 1) }) s
        ((s.ch c).hif.drift ≠ 15 → exec (.hallAcceptance c pair) s = .next counted) ∧
        ((s.ch c).hif.drift = 15 → ∃ t, exec (.hallAcceptance c pair) s = .next t ∧ OnlyLinks counted t ∧
          ∀ y, Hears s y .drift c →
            Holds t y .drift (some c) (signedWord ((s.ch c).hif.pos + stepDelta d)) 16)))) ∧
  ∀ (s : State) (c : Chan) (old pair : Pair) (d : Dir), s.calm → s.ready = true →
    (s.ch c).cal.populated = true → (s.ch c).hif.phase = some old → stepDir old pair = some d →
    ((s.ch c).hif.pos + stepDelta d < -1024 ∨ 5119 < (s.ch c).hif.pos + stepDelta d) →
    (∀ o, (s.ch c).moc.order = some o → o.mover = .client) →
    let at' := signedWord (s.ch c).hif.pos
    let ordered := (s.ch c).moc.order ≠ none ∧ s.inReversal c = false
    ∃ t, exec (.hallAcceptance c pair) s = .next t ∧ OnlyChannel c s t ∧
      (t.ch c).hif = { (s.ch c).hif with
        phase := some pair, candidate := none, count := 0, posValid := false
        drift := if (s.ch c).moc.motion.drive = none then (s.ch c).hif.drift else 0 } ∧
      (t.ch c).level = .noneKnown ∧ (t.ch c).moc.motion = .fault ∧
      ((s.ch c).level ≠ .noneKnown → ∀ y, Hears s y .levelChanged c → Holds t y .levelChanged (some c) at' 0) ∧
      ((s.ch c).moc.motion = .fault → (t.ch c).moc = (s.ch c).moc) ∧
      ((s.ch c).moc.motion ≠ .fault → (t.ch c).moc.fault = some .range ∧
        (∀ y, Hears s y .channelFault c → Holds t y .channelFault (some c) at' 3) ∧
        (ordered ∨ s.inReversal c = true → (t.ch c).moc.order = none ∧ (t.ch c).moc.slot = false ∧
          (t.ch c).moc.revTarget = none ∧ (t.ch c).moc.stall =
            (if (s.ch c).moc.motion.drive = none then (s.ch c).moc.stall else none)) ∧
        (ordered → ∀ y, Hears s y .moveEnded c → Holds t y .moveEnded (some c) at' 13) ∧
        (s.inReversal c = true → ∀ y, Hears s y .reversalEnd c → Holds t y .reversalEnd (some c) at' 21) ∧
        (ordered → (s.ch c).level ≠ .noneKnown → ∀ y, Hears s y .moveEnded c → Hears s y .levelChanged c →
          Hears s y .channelFault c → (s.link y).queue = [] →
          (t.link y).queue = [⟨.channelFault, some c, at', 3, s.clock.ms⟩,
            ⟨.moveEnded, some c, at', 13, s.clock.ms⟩, ⟨.levelChanged, some c, at', 0, s.clock.ms⟩]))

/-- R5, R9, R12, R51, R85, R90: a closing step of a CLOSING channel that is not at its target, of which
no channel is the leader and which leads none: the counter falls by one, a capture record joins the
FIFO (a full one drops its head and sets the gap mark), the no-step start count is cleared, the stall
timer restarts with the length that Pn or, at LEARNED past the run-up, the band's reference gives, and the
order runs on. R85: a drive-direction step that reaches the order's position target is captured, turns the drive
off and ends the order TARGET, with END_REACHED (open) at the soft stop of an opening order; R163: in the opening
half of a LEARN REFERENCE run it turns the drive off and the order becomes the closing half, in BRAKING with the
slot kept and no event. An opening step of an OPENING channel that is not at its target and in no companion link: the
counter rises by one, the record carries the direction opening, the stall timer restarts with the length that Pn
gives, and nothing else changes. -/
def Obligations.ClosingStepIsCaptured : Prop :=
  (∀ (s : State) (c : Chan) (o : Order) (old pair : Pair), s.agenda = [] → s.ready = true →
    (s.ch c).cal.populated = true → (s.ch c).moc.motion = .closing → (s.ch c).moc.order = some o →
    (s.ch c).cal.companion = none → s.leadersOf c = [] →
    (s.ch c).hif.phase = some old → stepDir old pair = some .closing → -1023 ≤ (s.ch c).hif.pos →
    (s.ch c).hif.pos ≤ 5119 → atTarget .closing o.target ((s.ch c).hif.pos - 1) = false → o.dir = .closing →
    ∃ t, exec (.hallAcceptance c pair) s = .next t ∧ OnlyChannel c s t ∧
      t = { s with chans := t.chans } ∧
      (t.ch c).hif.pos = (s.ch c).hif.pos - 1 ∧ (t.ch c).hif.phase = some pair ∧
      (t.ch c).hif.fifo =
        captured ⟨s.clock.timebase, (s.ch c).hif.pos - 1, .closing, s.sup.reading⟩ (s.ch c).hif.fifo ∧
      (t.ch c).hif.gap = ((s.ch c).hif.gap || decide (2 ≤ (s.ch c).hif.fifo.length)) ∧
      (t.ch c).moc.motion = .closing ∧ (t.ch c).moc.order = some o ∧
      (t.ch c).moc.noStep = 0 ∧ (t.ch c).moc.steps = (s.ch c).moc.steps + 1 ∧
      (∃ r, (t.ch c).moc.stall = some (s.clock.now + max 5000 (min (4 * r) 65000)) ∧
        ((s.ch c).level ≠ .learned ∨ o.phase = .refClosing ∨ (s.ch c).moc.steps + 1 < (s.ch c).cal.nr →
          r = (s.ch c).cal.pn) ∧
        (∀ ref, (s.ch c).level = .learned → o.phase ≠ .refClosing →
          (s.ch c).cal.nr ≤ (s.ch c).moc.steps + 1 →
          reference (s.ch c).cal ((s.ch c).hif.pos - 1) = some ref → r = ref))) ∧
  (∀ (s : State) (c : Chan) (o : Order) (old pair : Pair), s.agenda = [] → s.ready = true →
    (s.ch c).cal.populated = true → (s.ch c).moc.motion = .opening → (s.ch c).moc.order = some o →
    o.dir = .opening → (s.ch c).cal.companion = none → s.leadersOf c = [] →
    (s.ch c).hif.phase = some old → stepDir old pair = some .opening → -1025 ≤ (s.ch c).hif.pos →
    (s.ch c).hif.pos ≤ 5118 → atTarget .opening o.target ((s.ch c).hif.pos + 1) = false →
    exec (.hallAcceptance c pair) s = .next (updChan c (fun k => { k with
      hif := { k.hif with
        phase := some pair, candidate := none, count := 0, pos := k.hif.pos + 1
        fifo := captured ⟨s.clock.timebase, k.hif.pos + 1, .opening, s.sup.reading⟩ k.hif.fifo
        gap := k.hif.gap || decide (2 ≤ k.hif.fifo.length) }
      moc := { k.moc with
        noStep := 0, steps := k.moc.steps + 1
        stall := some (s.clock.now + max 5000 (min (4 * k.cal.pn) 65000)) } }) s)) ∧
  ∀ (s : State) (c : Chan) (o : Order) (old pair : Pair) (d : Dir), s.calm → s.ready = true →
    (s.ch c).cal.populated = true → (s.ch c).moc.motion.drive = some d → (s.ch c).moc.motion ≠ .reversing →
    (s.ch c).moc.order = some o → o.dir = d → (s.ch c).hif.phase = some old → stepDir old pair = some d →
    -1024 ≤ (s.ch c).hif.pos + stepDelta d → (s.ch c).hif.pos + stepDelta d ≤ 5119 →
    atTarget d o.target ((s.ch c).hif.pos + stepDelta d) = true →
    let x := (s.ch c).hif.pos + stepDelta d
    let off := fun (t : State) => OnlyChannel c s t ∧ SameDevice s t ∧
      (t.ch c).hif = { (s.ch c).hif with
        phase := some pair, candidate := none, count := 0, pos := x, drift := 0
        fifo := captured ⟨s.clock.timebase, x, d, s.sup.reading⟩ (s.ch c).hif.fifo
        gap := (s.ch c).hif.gap || decide (2 ≤ (s.ch c).hif.fifo.length) } ∧
      (t.ch c).moc.stall = none ∧ (t.ch c).moc.noStep = 0 ∧ (t.ch c).moc.brakeRunning = true ∧
      (t.ch c).moc.brakeExpiry = s.clock.now + 10000 * (s.ch c).cal.brake ∧
      (t.ch c).level = (s.ch c).level ∧ (t.ch c).cal = (s.ch c).cal
    (o.mover = .client → o.phase = .notLearning →
      ∃ t, exec (.hallAcceptance c pair) s = .next t ∧ off t ∧ (t.ch c).moc.motion = .idle ∧
        (t.ch c).moc.order = none ∧ (t.ch c).moc.slot = false ∧
        (∀ y, Hears s y .moveEnded c → Holds t y .moveEnded (some c) (signedWord x) 0) ∧
        (∀ lt : Nat, d = .opening → (s.ch c).cal.travel = some lt → o.target = .pos (lt - (s.ch c).cal.ms) →
          ∀ y, Hears s y .endReached c → Holds t y .endReached (some c) (signedWord x) 1)) ∧
    (o.phase = .refOpening →
      ∃ t, exec (.hallAcceptance c pair) s = .next t ∧ off t ∧ t.links = s.links ∧
        (t.ch c).moc.motion = .brakingOrder ∧ (t.ch c).moc.slot = (s.ch c).moc.slot ∧
        (t.ch c).moc.order = some { o with dir := .closing, target := .toEnd, phase := .refClosing } ∧
        (t.ch c).learning = (s.ch c).learning)

/-- R6, R97: a quadrature error counts, keeps the position and the FIFO, posts QUAD_ERROR with the count,
and faults the channel with reason QUAD only above 8 with the drive on. R10, R97: a contrary step counts, moves the
counter, leaves a capture record of its own direction and, up to the fourth, changes nothing else (it does not
restart the stall timer); the fifth faults the channel with reason WIRING, the order or reversal ending FAULT and
the level standing. -/
def Obligations.QuadratureErrorCounts : Prop :=
  (∀ (s : State) (c : Chan) (old pair : Pair), s.agenda = [] → s.ready = true →
    (s.ch c).cal.populated = true → (s.ch c).hif.phase = some old → old ≠ pair →
    stepDir old pair = none → (s.ch c).moc.motion ≠ .fault →
    ∃ t, exec (.hallAcceptance c pair) s = .next t ∧
      (t.ch c).hif.phase = some pair ∧ (t.ch c).hif.pos = (s.ch c).hif.pos ∧
      (t.ch c).hif.fifo = (s.ch c).hif.fifo ∧
      (t.ch c).hif.quadErrors = min 255 ((s.ch c).hif.quadErrors + 1) ∧
      (((s.ch c).moc.motion.drive = none ∨ (s.ch c).hif.quadErrors < 8) →
        OnlyChannel c s t ∧ (t.ch c).moc = (s.ch c).moc ∧
        ∀ y, Hears s y .quadError c →
          Holds t y .quadError (some c) (signedWord (s.ch c).hif.pos)
            (natWord (min 255 ((s.ch c).hif.quadErrors + 1)))) ∧
      (MotionTable s → (s.ch c).moc.motion.drive ≠ none → 8 ≤ (s.ch c).hif.quadErrors →
        s.startQueue = [] → (∀ d, (s.ch d).moc.motion ≠ .waiting) →
        (t.ch c).moc.motion = .fault ∧ (t.ch c).moc.fault = some .quad ∧ (t.ch c).moc.order = none ∧
        (t.ch c).moc.slot = false)) ∧
  ∀ (s : State) (c : Chan) (old pair : Pair) (d drive : Dir), s.agenda = [] → s.ready = true →
    (s.ch c).cal.populated = true → (s.ch c).moc.motion.drive = some drive → d ≠ drive →
    (s.ch c).hif.phase = some old → stepDir old pair = some d →
    -1024 ≤ (s.ch c).hif.pos + stepDelta d → (s.ch c).hif.pos + stepDelta d ≤ 5119 →
    let x := (s.ch c).hif.pos + stepDelta d
    let h := (s.ch c).hif
    let contrary : Hif := { h with
      phase := some pair, candidate := none, count := 0, pos := x, contrary := min 255 (h.contrary + 1)
      fifo := captured ⟨s.clock.timebase, x, d, s.sup.reading⟩ h.fifo
      gap := h.gap || decide (2 ≤ h.fifo.length) }
    (h.contrary < 4 → exec (.hallAcceptance c pair) s = .next (updHif c (fun _ => contrary) s)) ∧
    (4 ≤ h.contrary → s.calm → (∀ o, (s.ch c).moc.order = some o → o.mover = .client) →
      (s.ch c).moc.order ≠ none ∨ (s.ch c).moc.motion = .reversing →
      ∃ t, exec (.hallAcceptance c pair) s = .next t ∧ OnlyChannel c s t ∧ SameDevice s t ∧
        (t.ch c).hif = { contrary with drift := 0 } ∧ (t.ch c).level = (s.ch c).level ∧
        (t.ch c).moc.motion = .fault ∧ (t.ch c).moc.fault = some .wiring ∧ (t.ch c).moc.order = none ∧
        (t.ch c).moc.revTarget = none ∧ (t.ch c).moc.slot = false ∧ (t.ch c).moc.stall = none ∧
        (t.ch c).moc.brakeRunning = true ∧
        (∀ y, Hears s y .channelFault c → Holds t y .channelFault (some c) (signedWord x) 2) ∧
        ((s.ch c).moc.motion ≠ .reversing →
          ∀ y, Hears s y .moveEnded c → Holds t y .moveEnded (some c) (signedWord x) 13) ∧
        ((s.ch c).moc.motion = .reversing →
          ∀ y, Hears s y .reversalEnd c → Holds t y .reversalEnd (some c) (signedWord x) 21))

/-! ## Supply -/

/-- R18, R19, R22: a sample replaces the reading and moves the runs; the state is not judged in the first
three samples after a reset, and from then on a sample that leaves it as it is changes nothing else. R23: from
the fourth on, a sample that gives another state sets it, sets the exit run to 0 and posts SUPPLY_STATE with
the state and the reading; but for the entry into CRANK it changes nothing else. R25: at the entry into CRANK, from
a state in the motion table, that record joins each selecting queue ahead of the ends that the change causes. (A
queue keeps its last 16 records.) R22: each of the first four samples raises the settling count by one; that it stays
at 4 is the model's (log entry 35). R20, R21: the state that a sample gives: CRANK below 600 from every state; from
CRANK, after 40 samples at 700 or above, LOW, HIGH or NORMAL by the runs; from NORMAL, LOW after 4 samples below 800,
HIGH after 4 above 1600; from LOW and HIGH, after 20 samples at the exit limit, and from HIGH also LOW. -/
def Obligations.SupplySamplesMoveRunsAndState : Prop :=
  ∀ (s : State) (r : Nat) (p : Supply), s.agenda = [] → r ≤ 2047 →
    ((s.sup.settling < 3 ∨ (s.sup.sample r).next = s.sup.state) →
      exec (.supplySample r) s = .next { s with sup := s.sup.sample r }) ∧
    (3 ≤ s.sup.settling → (s.sup.sample r).next ≠ s.sup.state →
      ∃ t, exec (.supplySample r) s = .next t ∧
        t.sup = { s.sup.sample r with state := (s.sup.sample r).next, exitRun := 0 } ∧
        (let posted : Event := ⟨.supplyState, none, 0, (match (s.sup.sample r).next with
            | .normal => 0x0000 | .low => 0x4000 | .high => 0x8000 | .crank => 0xC000) ||| natWord r, s.clock.ms⟩
         ((s.sup.sample r).next ≠ .crank → OnlyLinks { s with sup := t.sup } t ∧
          ∀ y, (s.link y).mask.getLsbD 8 = true → posted ∈ (t.link y).queue) ∧
         ((s.sup.sample r).next = .crank → MotionTable s → ∀ y, (s.link y).mask.getLsbD 8 = true →
          (s.link y).queue.length ≤ 16 → ∃ ends : List Event,
            (∀ e ∈ ends, e.kind ∈ [.moveEnded, .reversalEnd, .learnFailed, .groupDone]) ∧
            (let all := (s.link y).queue ++ [posted] ++ ends
             (t.link y).queue = all.drop (all.length - 16))))) ∧
    (s.sup.sample r).reading = r ∧
    (s.sup.sample r).lowRun = (if r < 800 then min 255 (s.sup.lowRun + 1) else 0) ∧
    (s.sup.sample r).highRun = (if 1600 < r then min 255 (s.sup.highRun + 1) else 0) ∧
    (s.sup.sample r).state = s.sup.state ∧
    (s.sup.settling < 4 → (s.sup.sample r).settling = s.sup.settling + 1) ∧
    (s.sup.settling = 4 → (s.sup.sample r).settling = 4) ∧
    (s.sup.state = .normal → (s.sup.sample r).exitRun = 0) ∧
    (s.sup.state = .crank → (s.sup.sample r).exitRun = if 700 ≤ r then min 255 (s.sup.exitRun + 1) else 0) ∧
    (s.sup.state = .low → (s.sup.sample r).exitRun = if 850 ≤ r then min 255 (s.sup.exitRun + 1) else 0) ∧
    (s.sup.state = .high → (s.sup.sample r).exitRun = if r ≤ 1550 then min 255 (s.sup.exitRun + 1) else 0) ∧
    (p.reading < 600 → p.next = .crank) ∧
    (600 ≤ p.reading → p.state = .crank → p.exitRun < 40 → p.next = .crank) ∧
    (600 ≤ p.reading → p.state = .crank → 40 ≤ p.exitRun → 4 ≤ p.lowRun → p.next = .low) ∧
    (600 ≤ p.reading → p.state = .crank → 40 ≤ p.exitRun → p.lowRun < 4 → 4 ≤ p.highRun → p.next = .high) ∧
    (600 ≤ p.reading → p.state = .crank → 40 ≤ p.exitRun → p.lowRun < 4 → p.highRun < 4 → p.next = .normal) ∧
    (600 ≤ p.reading → p.state = .normal → 4 ≤ p.lowRun → p.next = .low) ∧
    (600 ≤ p.reading → p.state = .normal → p.lowRun < 4 → 4 ≤ p.highRun → p.next = .high) ∧
    (600 ≤ p.reading → p.state = .normal → p.lowRun < 4 → p.highRun < 4 → p.next = .normal) ∧
    (600 ≤ p.reading → p.state = .low → p.exitRun < 20 → p.next = .low) ∧
    (600 ≤ p.reading → p.state = .low → 20 ≤ p.exitRun → 4 ≤ p.highRun → p.next = .high) ∧
    (600 ≤ p.reading → p.state = .low → 20 ≤ p.exitRun → p.highRun < 4 → p.next = .normal) ∧
    (600 ≤ p.reading → p.state = .high → 4 ≤ p.lowRun → p.next = .low) ∧
    (600 ≤ p.reading → p.state = .high → p.lowRun < 4 → 20 ≤ p.exitRun → p.next = .normal) ∧
    (600 ≤ p.reading → p.state = .high → p.lowRun < 4 → p.exitRun < 20 → p.next = .high)

/-- R20, R25, R26: after the entry into CRANK no drive is on and no slot is held: every channel is IDLE, or in
FAULT as before, the start queue is empty, the positions, latched flags and marks of AUT stand. -/
def Obligations.CrankShutsEveryDriveOff : Prop :=
  ∀ (s : State) (r : Nat), MotionTable s → r < 600 → 3 ≤ s.sup.settling → s.sup.state ≠ .crank →
    ∃ t, exec (.supplySample r) s = .next t ∧ t.sup.state = .crank ∧ t.startQueue = [] ∧
      (∀ c, (s.ch c).moc.motion = .fault → (t.ch c).moc.motion = .fault) ∧
      (∀ c, (s.ch c).moc.motion ≠ .fault → (t.ch c).moc.motion = .idle) ∧
      (∀ c, (t.ch c).moc.order = none ∧ (t.ch c).moc.slot = false ∧ (t.ch c).moc.revTarget = none ∧
        (t.ch c).hif.pos = (s.ch c).hif.pos ∧ (t.ch c).moc.latched = (s.ch c).moc.latched ∧
        (t.ch c).auth = (s.ch c).auth)

/-! ## Load estimation -/

/-- R13, R30, R31: LDE, when free, takes the head record of the first channel that holds one, counted
from the channel after the last served; the gap mark goes with it. R31: what it reads at the take: the record, the
gap mark, the blank count, the level, the calibration record and the supply state, and of the current order k and
whether it is a closing half, 0 and no with the drive off or no order held. (The rest of the load context stands from
the take to the completion, or the results are dropped; a blanking between them is log entry 11.) -/
def Obligations.LdeTakesInTurn : Prop :=
  ∀ (s : State) (c : Chan) (r : Capture) (rest : List Capture), s.agenda = [] → s.lde.busy = none →
    (s.ch c).hif.fifo = r :: rest →
    (∀ d : Chan, (d - s.lde.lastServed - 1).val < (c - s.lde.lastServed - 1).val → (s.ch d).hif.fifo = []) →
    ∃ t, exec .ldeTake s = .next t ∧ OnlyChannel c s t ∧
      t = { s with chans := t.chans, lde := t.lde } ∧ t.lde.lastServed = c ∧
      t.ch c = { s.ch c with hif := { (s.ch c).hif with fifo := rest, gap := false } } ∧
      ∃ k, t.lde.busy = some k ∧ k.chan = c ∧ k.since = s.clock.now ∧ k.record = r ∧ k.gap = (s.ch c).hif.gap ∧
        k.blank = (s.ch c).ctx.blank ∧ k.level = (s.ch c).level ∧ k.cal = (s.ch c).cal ∧ k.supply = s.sup.state ∧
        k.dropped = false ∧ k.reblanked = false ∧
        ((s.ch c).moc.motion.drive = none ∨ (s.ch c).moc.order = none → k.k = 0 ∧ k.learnClose = false) ∧
        (∀ o, (s.ch c).moc.motion.drive ≠ none → (s.ch c).moc.order = some o →
          k.k = o.k ∧ k.learnClose = decide (o.phase = .refClosing))

/-- R31, R32: how LDE sorts the record taken, and what the completion then writes into the channel's context: a
record of an opening run or of a decided run changes nothing; a contrary record makes seeded no; a closing record
taken with the gap mark, or while seeded is no, is a seed, which sets t_prev and seeded and, with the mark, counts the
gap (R33); any other is a computed step, whose results (`FullStepArithmetic`) are written, and whose decision, if it
gives one, is the record's (`DecisionsInOrder`, `PinchTurnsTheDriveOff`). The results of a take that a drive-on or
restart overtook are dropped. R35, R164: a computed step of a learning close taken in LOW, HIGH or CRANK also sets
the failure mark SUPPLY, if it is none; that it sets none once the order has ended is the model's choice (log entry 42).
Nothing else changes. -/
def Obligations.LdeCompletionWritesTheContext : Prop :=
  ∀ (s : State) (t : Take), s.agenda = [] → s.lde.busy = some t →
    let k := (s.ch t.chan).ctx
    let step := computedStep t k
    let wrote := fun (k' : LoadContext) =>
      { updCtx t.chan (fun _ => k') s with lde := { s.lde with busy := none } }
    (t.dropped = true → exec .ldeCompletion s = .next { s with lde := { s.lde with busy := none } }) ∧
    (t.dropped = false →
      (k.runDir = some .opening ∨ k.decided = true →
        exec .ldeCompletion s = .next (wrote k) ∧ treatRecord t k = (k, none)) ∧
      (k.runDir = some .closing → k.decided = false →
        (t.record.dir = .opening → exec .ldeCompletion s = .next (wrote { k with seeded := false })) ∧
        (t.record.dir = .closing → t.gap = true ∨ k.seeded = false →
          exec .ldeCompletion s = .next (wrote { k with
            tPrev := t.record.stamp, seeded := true
            gapCount := if t.gap then min 255 (k.gapCount + 1) else k.gapCount })) ∧
        (t.record.dir = .closing → t.gap = false → k.seeded = true →
          treatRecord t k = step ∧
          (step.2 = none →
            (t.learnClose = false ∨ t.supply = .normal ∨ (s.ch t.chan).moc.order = none →
              exec .ldeCompletion s = .next (wrote step.1)) ∧
            (∀ o, t.learnClose = true → t.supply ≠ .normal → (s.ch t.chan).moc.order = some o →
              o.phase = .refClosing →
              exec .ldeCompletion s = .next (updLearning t.chan
                (fun l => { l with mark := some (l.mark.getD .supply) }) (wrote step.1)))))))

/-- R33 to R36, R44, R45, R49: what a computed step does in either regime: t_prev, the run-up count, the blank
count, supply-qualified, and the band of a counted step; R36, R45: when it is FULL and when it is blanked;
R37: an ABSOLUTE step leaves S, A and the jolt count. R34, R38 to R43: the arithmetic of a FULL step in zone
`z` against the reference `ref`, with A by the kind of the zone and the blanking. -/
def Obligations.FullStepArithmetic : Prop :=
  ∀ (t : Take) (k : LoadContext),
    let pc : Nat := min (((t.record.stamp - k.tPrev).toNat * max 800 (min t.record.reading 1600) + 675) / 1350) 65535
    let next : LoadContext := (computedStep t k).1
    (isBlanked t k = true ↔ 0 < t.blank ∧ t.cal.nr ≤ k.runUp) ∧
    (isFull t k = true ↔ t.level = .learned ∧ t.cal.nr ≤ k.runUp ∧ t.learnClose = false) ∧
    next.tPrev = t.record.stamp ∧ next.seeded = k.seeded ∧ next.runDir = k.runDir ∧
    next.gapCount = k.gapCount ∧
    next.runUp = (if k.runUp < t.cal.nr then k.runUp + 1 else k.runUp) ∧
    (t.reblanked = false → t.blank = k.blank →
      next.blank = if 0 < k.blank ∧ t.cal.nr ≤ k.runUp then k.blank - 1 else k.blank) ∧
    next.qualified = (k.qualified && decide (t.supply = .normal)) ∧
    (t.cal.travel = none ∨ k.runUp < t.cal.nr ∨ 0 < t.blank → next.bands = k.bands) ∧
    (∀ (lt : Nat) (b : Fin 127), t.cal.travel = some lt → t.cal.nr ≤ k.runUp → t.blank = 0 →
      b.val = (if t.record.pos < 0 then 0 else min (t.record.pos.toNat / 32) ((lt + 31) / 32 - 1)) →
      next.bands[b] = (if k.bands[b].count < 32 then ⟨k.bands[b].sum + pc, k.bands[b].count + 1⟩
        else k.bands[b]) ∧
      ∀ e : Fin 127, e ≠ b → next.bands[e] = k.bands[e]) ∧
    (isFull t k = false →
      next.smoothed = k.smoothed ∧ next.excess = k.excess ∧ next.joltCount = k.joltCount) ∧
    ∀ (z : Zone) (ref : Nat), isFull t k = true → zoneOf t = some z →
      reference t.cal t.record.pos = some ref → 0 < ref →
      let l : Int := max (-1024) (min ((((pc : Int) - ref) * 1024).tdiv ref) 4095)
      let l' : Int := min l (k.smoothed + t.cal.jolt)
      let sm : Int := k.smoothed + (l' - k.smoothed).tdiv 4
      let lim : Nat := min 4095 (z.t * (t.k + 1))
      next.smoothed = sm ∧
      next.joltCount = (if k.smoothed + t.cal.jolt < l then min 255 (k.joltCount + 1) else k.joltCount) ∧
      (z.kind = .guard → t.blank = 0 → (lim : Int) < sm →
        (next.excess : Int) = min 65535 (k.excess + (sm - lim))) ∧
      (z.kind = .guard → t.blank = 0 → sm ≤ (lim : Int) →
        (next.excess : Int) = max 0 (k.excess - (lim - sm))) ∧
      (z.kind = .guard → 0 < t.blank → next.excess = k.excess) ∧
      (z.kind = .watch → next.excess = k.excess) ∧
      (z.kind = .seal → next.excess = 0)

/-- R46: the decision at the end of a FULL step: HARD first, in GUARD and WATCH zones, against the
unscaled H; then ACCUMULATED, in GUARD zones, on steps that are not blanked; none in a SEAL zone. S and A
are those after the step; an ABSOLUTE step is tested by R37 alone: at level NONE everywhere, above it outside SEAL,
against min(65535, Ru × (k + 1)). R38: the zone in force is looked up above level NONE only. -/
def Obligations.DecisionsInOrder : Prop :=
  ∀ (z : Zone) (k : Nat) (blanked : Bool) (sm : Int) (a : Nat),
    (z.kind = .seal → fullDecision (some z) k blanked sm a = none) ∧
    (z.kind ≠ .seal → (z.h : Int) ≤ sm → fullDecision (some z) k blanked sm a = some ⟨.hard, sm⟩) ∧
    (z.kind = .guard → sm < (z.h : Int) → blanked = false → min 65535 (z.e * (k + 1)) ≤ a →
      fullDecision (some z) k blanked sm a = some ⟨.accumulated, sm⟩) ∧
    (z.kind = .guard → sm < (z.h : Int) → (blanked = true ∨ a < min 65535 (z.e * (k + 1))) →
      fullDecision (some z) k blanked sm a = none) ∧
    (z.kind = .watch → sm < (z.h : Int) → fullDecision (some z) k blanked sm a = none) ∧
    ∀ (t : Take) (c : LoadContext),
      (isFull t c = true → (computedStep t c).2 = fullDecision (zoneOf t) t.k (isBlanked t c)
        (computedStep t c).1.smoothed (computedStep t c).1.excess) ∧
      (isFull t c = false → (computedStep t c).2 = absoluteDecision t.level ((zoneOf t).map Zone.kind)
        (compensate (period t.record.stamp c.tPrev) t.record.reading) (absoluteLimit t.cal.ru t.k)) ∧
      (t.level = .noneKnown → zoneOf t = none) ∧
      (t.level ≠ .noneKnown → zoneOf t = zoneAt t.cal.zones t.record.pos) ∧
      ∀ (lvl : Level) (kind : Option ZoneKind) (pc ru j : Nat),
        (lvl = .noneKnown ∨ kind ≠ some .seal → min 65535 (ru * (j + 1)) ≤ pc →
          absoluteDecision lvl kind pc (absoluteLimit ru j) = some ⟨.absolute, 0⟩) ∧
        (pc < min 65535 (ru * (j + 1)) → absoluteDecision lvl kind pc (absoluteLimit ru j) = none) ∧
        (lvl ≠ .noneKnown → absoluteDecision lvl (some .seal) pc (absoluteLimit ru j) = none)

/-- R47, R91, R92, R132: the completion of a record that gives a decision on a CLOSING channel: the
drive goes off and the brake timer starts, the order is over, PINCH is posted, the reversal-latched flag
is set and the reversal target is formed from the decision's position (min(Lt − Ms, max(x + Rd, F)) at
ENDS_KNOWN and LEARNED, x + Rd below, no more than 5119), the slot is kept, a REMOTE order sets the inhibit; no other
channel changes. R52, R86: a closing stall above level NONE outside SEAL is such a decision, with reason STALL,
load 0 and the counter at the expiry. R47: a record that gives a decision sets decided in the context. R91: on a
channel that is not CLOSING the decision changes nothing; the record's results are written all the same (R47). -/
def Obligations.PinchTurnsTheDriveOff : Prop :=
  (∀ (s : State) (t : Take) (d : Decision) (o : Order), s.calm → s.lde.busy = some t → t.dropped = false →
    (treatRecord t (s.ch t.chan).ctx).2 = some d → t.learnClose = false →
    (s.ch t.chan).moc.motion = .closing → (s.ch t.chan).moc.order = some o → o.mover = .client →
    ∃ u, exec .ldeCompletion s = .next u ∧ OnlyChannel t.chan s u ∧
      (u.ch t.chan).moc.motion = .brakingPinch ∧ (u.ch t.chan).moc.order = none ∧
      (u.ch t.chan).moc.latched = true ∧ (u.ch t.chan).moc.slot = (s.ch t.chan).moc.slot ∧
      (u.ch t.chan).moc.stall = none ∧ (u.ch t.chan).moc.brakeRunning = true ∧
      (u.ch t.chan).moc.brakeExpiry = s.clock.now + 10000 * (s.ch t.chan).cal.brake ∧
      ((s.ch t.chan).level = .noneKnown ∨ (s.ch t.chan).level = .closedKnown →
        (u.ch t.chan).moc.revTarget = some (min (t.record.pos + (s.ch t.chan).cal.rd) 5119)) ∧
      (∀ lt : Nat, (s.ch t.chan).level = .endsKnown ∨ (s.ch t.chan).level = .learned →
        (s.ch t.chan).cal.travel = some lt → (s.ch t.chan).cal.ms ≤ lt →
        (u.ch t.chan).moc.revTarget = some (min (min ((lt : Int) - (s.ch t.chan).cal.ms)
          (max (t.record.pos + (s.ch t.chan).cal.rd) (s.ch t.chan).cal.floor)) 5119)) ∧
      (u.ch t.chan).auth.inhibit = ((s.ch t.chan).auth.inhibit || decide (o.origin = .remoteReq)) ∧
      (u.ch t.chan).auth.pinchLevel = o.k ∧ (u.ch t.chan).hif.pos = (s.ch t.chan).hif.pos ∧
      (u.ch t.chan).ctx = (treatRecord t (s.ch t.chan).ctx).1 ∧ (u.ch t.chan).ctx.decided = true ∧
      (∀ y, Hears s y .pinch t.chan →
        Holds u y .pinch (some t.chan) (signedWord t.record.pos) (pinchDetail d.reason d.load))) ∧
  (∀ (s : State) (t : Take) (d : Decision), s.agenda = [] → s.lde.busy = some t → t.dropped = false →
    (treatRecord t (s.ch t.chan).ctx).2 = some d → t.learnClose = false ∨ t.supply = .normal →
    (s.ch t.chan).moc.motion ≠ .closing →
    let after := (treatRecord t (s.ch t.chan).ctx).1
    after.decided = true ∧
    exec .ldeCompletion s = .next { updCtx t.chan (fun _ => after) s with lde := { s.lde with busy := none } }) ∧
  ∀ (s : State) (c : Chan) (o : Order) (due : Nat), s.calm → (s.ch c).moc.stall = some due →
    due ≤ s.clock.now → (s.ch c).moc.motion = .closing → (s.ch c).moc.order = some o →
    o.mover = .client → (s.ch c).level ≠ .noneKnown → 0 < (s.ch c).moc.steps →
    zoneKindAt (s.ch c).cal.zones (s.ch c).hif.pos ≠ some .seal →
    ∃ u, exec (.stall c) s = .next u ∧ OnlyChannel c s u ∧ SameDevice s u ∧
      (u.ch c).moc.motion = .brakingPinch ∧ (u.ch c).moc.order = none ∧ (u.ch c).moc.latched = true ∧
      (u.ch c).moc.slot = (s.ch c).moc.slot ∧ (u.ch c).moc.stall = none ∧
      (u.ch c).moc.brakeExpiry = s.clock.now + 10000 * (s.ch c).cal.brake ∧
      (u.ch c).moc.revTarget = some (reversalTarget (s.ch c).cal (s.ch c).level (s.ch c).hif.pos) ∧
      (u.ch c).auth.inhibit = ((s.ch c).auth.inhibit || decide (o.origin = .remoteReq)) ∧
      (u.ch c).auth.pinchLevel = o.k ∧ (u.ch c).hif.pos = (s.ch c).hif.pos ∧
      (∀ y, Hears s y .pinch c → Holds u y .pinch (some c) (signedWord (s.ch c).hif.pos) 0x6000)

/-! ## Motion -/

/-- R86, R87, R96, R130, R132: a closing stall above level NONE in a SEAL zone with a correction of 24 or
less is a closed end: the order ends CLOSED_END, the position is 0 and valid, the flag and the override
are cleared, END_REACHED and MOVE_ENDED are posted, the level stands; no other channel changes. R157: with a
correction above 24 POSITION_CORRECTED is posted and a LEARNED channel loses its profile and falls to
ENDS_KNOWN. R88, R156: at level NONE the closed end is found, and the level rises to what the record supports.
R89: an opening stall is OPEN_END from Lt − 24 on at ENDS_KNOWN and LEARNED, OBSTRUCTED elsewhere. R90: a stall
before the first step counts a no-step start, the third faults the channel with reason NO_STEPS. -/
def Obligations.ClosedEndResyncs : Prop :=
  (∀ (s : State) (c : Chan) (o : Order) (due : Nat), s.calm → (s.ch c).moc.stall = some due →
    due ≤ s.clock.now → (s.ch c).moc.motion = .closing → (s.ch c).moc.order = some o →
    o.mover = .client → (s.ch c).level ≠ .noneKnown → 0 < (s.ch c).moc.steps →
    zoneKindAt (s.ch c).cal.zones (s.ch c).hif.pos = some .seal → (s.ch c).hif.pos.natAbs ≤ 24 →
    ∃ t, exec (.stall c) s = .next t ∧ OnlyChannel c s t ∧ SameDevice s t ∧
      (t.ch c).moc.motion = .idle ∧ (t.ch c).moc.order = none ∧ (t.ch c).moc.slot = false ∧
      (t.ch c).moc.latched = false ∧ (t.ch c).moc.brakeRunning = true ∧
      (t.ch c).hif.pos = 0 ∧ (t.ch c).hif.posValid = true ∧ (t.ch c).level = (s.ch c).level ∧
      (t.ch c).auth.overrideLevel = 0 ∧ (t.ch c).auth.pinchLevel = 0 ∧ (t.ch c).auth.window = none ∧
      (o.origin = .localReq → (t.ch c).auth.inhibit = false) ∧
      (o.origin = .remoteReq → (t.ch c).auth.inhibit = (s.ch c).auth.inhibit) ∧
      (∀ y, Hears s y .endReached c → Holds t y .endReached (some c) 0 0) ∧
      (∀ y, Hears s y .moveEnded c → Holds t y .moveEnded (some c) 0 1)) ∧
  ∀ (s : State) (c : Chan) (o : Order) (due : Nat), s.calm → (s.ch c).moc.stall = some due →
    due ≤ s.clock.now → (s.ch c).moc.order = some o → o.mover = .client → o.phase = .notLearning →
    let ended := fun (t : State) (code : Word) => OnlyChannel c s t ∧ (t.ch c).moc.motion = .idle ∧
      (t.ch c).moc.order = none ∧ (t.ch c).moc.slot = false ∧ (t.ch c).moc.brakeRunning = true ∧
      ∀ y, Hears s y .moveEnded c → Holds t y .moveEnded (some c) (signedWord (t.ch c).hif.pos) code
    ((s.ch c).moc.motion = .closing → 0 < (s.ch c).moc.steps → (s.ch c).level ≠ .noneKnown →
      zoneKindAt (s.ch c).cal.zones (s.ch c).hif.pos = some .seal → 24 < (s.ch c).hif.pos.natAbs →
      ∃ t, exec (.stall c) s = .next t ∧ ended t 1 ∧ SameDevice s t ∧ (t.ch c).hif.pos = 0 ∧
        (t.ch c).hif.posValid = true ∧ (t.ch c).moc.latched = false ∧
        (∀ y, Hears s y .positionCorrected c →
          Holds t y .positionCorrected (some c) 0 (signedWord (s.ch c).hif.pos)) ∧
        ((s.ch c).level = .learned → (t.ch c).level = .endsKnown ∧
          (t.ch c).cal = { (s.ch c).cal with
            profile := none, adaptations := 0, unsaved := true, changed := true } ∧
          ∀ y, Hears s y .levelChanged c → Holds t y .levelChanged (some c) 0 2) ∧
        ((s.ch c).level ≠ .learned → (t.ch c).level = (s.ch c).level ∧ (t.ch c).cal = (s.ch c).cal)) ∧
    ((s.ch c).moc.motion = .closing → 0 < (s.ch c).moc.steps → (s.ch c).level = .noneKnown →
      ∃ t, exec (.stall c) s = .next t ∧ ended t 1 ∧ SameDevice s t ∧ (t.ch c).hif.pos = 0 ∧
        (t.ch c).hif.posValid = true ∧ (t.ch c).moc.latched = false ∧ (t.ch c).cal = (s.ch c).cal ∧
        (t.ch c).level = (match (s.ch c).cal.travel, (s.ch c).cal.profile with
          | none, _ => .closedKnown
          | some _, none => .endsKnown
          | some _, some _ => .learned) ∧
        (∀ y, Hears s y .levelChanged c →
          Holds t y .levelChanged (some c) 0 (natWord (levelCode (t.ch c).level))) ∧
        (∀ y, Hears s y .endReached c → Holds t y .endReached (some c) 0 0)) ∧
    ((s.ch c).moc.motion = .opening → 0 < (s.ch c).moc.steps →
      let near := ∃ lt : Nat, (s.ch c).cal.travel = some lt ∧ (lt : Int) - 24 ≤ (s.ch c).hif.pos ∧
        ((s.ch c).level = .endsKnown ∨ (s.ch c).level = .learned)
      ∃ t, exec (.stall c) s = .next t ∧ SameDevice s t ∧ (t.ch c).hif = { (s.ch c).hif with drift := 0 } ∧
        (t.ch c).level = (s.ch c).level ∧ (t.ch c).moc.latched = (s.ch c).moc.latched ∧
        (near → ended t 2 ∧ ∀ y, Hears s y .endReached c →
          Holds t y .endReached (some c) (signedWord (s.ch c).hif.pos) 1) ∧
        (¬ near → ended t 9)) ∧
    ((s.ch c).moc.motion = .closing ∨ (s.ch c).moc.motion = .opening → (s.ch c).moc.steps = 0 →
      ((s.ch c).moc.noStep < 2 → ∃ t, exec (.stall c) s = .next t ∧
        (t.ch c).moc.noStep = (s.ch c).moc.noStep + 1 ∧ (t.ch c).moc.motion ≠ .fault ∧
        (t.ch c).moc.order = none) ∧
      ((s.ch c).moc.noStep = 2 → ∃ t, exec (.stall c) s = .next t ∧ OnlyChannel c s t ∧ SameDevice s t ∧
        (t.ch c).moc.noStep = 3 ∧ (t.ch c).moc.motion = .fault ∧ (t.ch c).moc.fault = some .noSteps ∧
        (t.ch c).moc.order = none ∧ (t.ch c).moc.slot = false ∧
        (∀ y, Hears s y .channelFault c →
          Holds t y .channelFault (some c) (signedWord (s.ch c).hif.pos) 4) ∧
        (∀ y, Hears s y .moveEnded c → Holds t y .moveEnded (some c) (signedWord (s.ch c).hif.pos) 13)))

/-- R84, R93, R81, R14, R44, R111: at the brake expiry after a pinch, below the reversal target, the open drive
turns on without a grant: REVERSING, the slot as it was, the stall timer at 150 ms, the spacing timer
armed, the FIFO, the gap mark and the three counts of HIF cleared (R14); of the other channels only the blank
counts change, of those in a closing run past their run-up, each to its own Bn (R44). R93: at or above the target the
reversal ends REV_TARGET without a drive-on: IDLE, the slot released, the 10 s override window open. R84: in BRAKING
within an order the drive of the order's direction turns on in the slot kept, or, at the target, the order ends TARGET
and the slot is released. R109, R110: in QUEUED the expiry is a grant test: with a slot free, the spacing elapsed and
the brakes of those ahead running the channel is granted and its drive turns on; without a slot or the spacing only
the brake timer stops. (The channel leads and follows no other; at the two ends no channel waits or is queued.) -/
def Obligations.BrakeExpiryStartsTheReversal : Prop :=
  ∀ (s : State) (c : Chan), s.agenda = [] → (s.ch c).moc.brakeRunning = true →
    (s.ch c).moc.brakeExpiry ≤ s.clock.now →
    let drives := fun (t : State) (m : Motion) (d : Dir) =>
      (t.ch c).moc.motion = m ∧ (t.ch c).moc.brakeRunning = false ∧
      (t.ch c).moc.stall = some (s.clock.now + 150000) ∧ (t.ch c).ctx.runDir = some d ∧
      (t.ch c).hif = { (s.ch c).hif with
        fifo := [], gap := false, quadErrors := 0, contrary := 0, drift := 0 } ∧
      t.spacing = .armed s.clock.now false ∧ NeighboursBlanked c s t ∧ t.links = s.links
    let ended := fun (t : State) (k : EventKind) (code : Word) => OnlyChannel c s t ∧ SameDevice s t ∧
      (t.ch c).moc.motion = .idle ∧ (t.ch c).moc.order = none ∧ (t.ch c).moc.revTarget = none ∧
      (t.ch c).moc.slot = false ∧ (t.ch c).moc.brakeRunning = false ∧ (t.ch c).hif = (s.ch c).hif ∧
      (t.ch c).moc.latched = (s.ch c).moc.latched ∧
      ∀ y, Hears s y k c → Holds t y k (some c) (signedWord (s.ch c).hif.pos) code
    (∀ target, (s.ch c).moc.motion = .brakingPinch → (s.ch c).moc.revTarget = some target →
      ((s.ch c).hif.pos < target →
        ∃ t, exec (.brakeExpiry c) s = .next t ∧ drives t .reversing .opening ∧
          (t.ch c).moc.revTarget = some target ∧ (t.ch c).moc.slot = (s.ch c).moc.slot ∧
          t.startQueue = s.startQueue) ∧
      (target ≤ (s.ch c).hif.pos → s.calm →
        ∃ t, exec (.brakeExpiry c) s = .next t ∧ ended t .reversalEnd 16 ∧
          (t.ch c).auth = { (s.ch c).auth with window := some (s.clock.now + 10000000) })) ∧
    (∀ o, (s.ch c).moc.order = some o → (s.ch c).cal.companion = none → s.leadersOf c = [] →
      let on : Motion := match o.dir with | .closing => .closing | .opening => .opening
      let reached := atTarget o.dir o.target (s.ch c).hif.pos
      ((s.ch c).moc.motion = .brakingOrder →
        (reached = false →
          ∃ t, exec (.brakeExpiry c) s = .next t ∧ drives t on o.dir ∧ (t.ch c).moc.order = some o ∧
            (t.ch c).moc.slot = (s.ch c).moc.slot ∧ t.startQueue = s.startQueue) ∧
        (reached = true → s.calm → o.mover = .client → o.phase = .notLearning →
          ∃ t, exec (.brakeExpiry c) s = .next t ∧ ended t .moveEnded 0)) ∧
      ((s.ch c).moc.motion = .queued →
        (s.spacingElapsed = false ∨ s.glob.ns ≤ s.slotCount →
          exec (.brakeExpiry c) s = .next (updMoc c (fun k => { k with brakeRunning := false }) s)) ∧
        (∀ ahead behind, s.startQueue = ahead ++ c :: behind → s.startQueue.Nodup →
          (∀ d ∈ ahead, (s.ch d).moc.brakeRunning = true) → s.spacingElapsed = true →
          s.slotCount < s.glob.ns → reached = false →
          ∃ t, exec (.brakeExpiry c) s = .next t ∧ drives t on o.dir ∧ (t.ch c).moc.order = some o ∧
            (t.ch c).moc.slot = true ∧ t.startQueue = ahead ++ behind)))

/-- R93, R94, R130: a step that brings a REVERSING channel to its target ends the reversal REV_TARGET:
IDLE, the slot released, the 10 s override window open, the latched flag kept. R86, R94: a stall of a REVERSING
channel past its first step ends the reversal REV_STALLED, the window as it was. -/
def Obligations.ReversalEndsAtItsTarget : Prop :=
  (∀ (s : State) (c : Chan) (old pair : Pair), s.calm → s.ready = true → (s.ch c).cal.populated = true →
    (s.ch c).moc.motion = .reversing → (s.ch c).hif.phase = some old →
    stepDir old pair = some .opening → (s.ch c).moc.revTarget = some ((s.ch c).hif.pos + 1) →
    (s.ch c).hif.pos + 1 ≤ 5119 → -1025 ≤ (s.ch c).hif.pos →
    ∃ t, exec (.hallAcceptance c pair) s = .next t ∧ OnlyChannel c s t ∧
      (t.ch c).moc.motion = .idle ∧ (t.ch c).moc.revTarget = none ∧ (t.ch c).moc.slot = false ∧
      (t.ch c).moc.latched = (s.ch c).moc.latched ∧
      (t.ch c).auth.window = some (s.clock.now + 10000000) ∧
      (t.ch c).hif.pos = (s.ch c).hif.pos + 1 ∧
      (∀ y, Hears s y .reversalEnd c →
        Holds t y .reversalEnd (some c) (signedWord ((s.ch c).hif.pos + 1)) 16)) ∧
  ∀ (s : State) (c : Chan) (due : Nat), s.calm → (s.ch c).moc.stall = some due → due ≤ s.clock.now →
    (s.ch c).moc.motion = .reversing → 0 < (s.ch c).moc.steps →
    ∃ t, exec (.stall c) s = .next t ∧ OnlyChannel c s t ∧
      (t.ch c).moc.motion = .idle ∧ (t.ch c).moc.revTarget = none ∧ (t.ch c).moc.slot = false ∧
      (t.ch c).moc.brakeRunning = true ∧ (t.ch c).moc.latched = (s.ch c).moc.latched ∧
      (t.ch c).auth = (s.ch c).auth ∧ (t.ch c).hif.pos = (s.ch c).hif.pos ∧
      (∀ y, Hears s y .reversalEnd c →
        Holds t y .reversalEnd (some c) (signedWord (s.ch c).hif.pos) 18)

/-- R109, R110, R81, R111: the spacing timer runs out with a slot free: the first channel of the start queue whose
brake timer has expired (those ahead of it, whose timers run, are passed over and keep their places) is granted
the slot and its drive turns on in the direction of its order. The channel is in no companion link and not at
its target. R105, R106, R107: with no slot free, a MOVE on an IDLE channel joins the tail of its class, opening
ahead of closing; on a QUEUED one it keeps the place in the same direction and moves to the tail of the other
class in the other. R44: at the grant the blank counts of the other channels in a closing run past their run-up
become their Bn, and nothing else of those changes. -/
def Obligations.SpacingRunOutGrantsTheHead : Prop :=
  (∀ (s : State) (ahead behind : List Chan) (c : Chan) (o : Order) (since : Nat), s.agenda = [] →
    s.startQueue = ahead ++ c :: behind → s.startQueue.Nodup →
    (∀ d ∈ ahead, (s.ch d).moc.brakeRunning = true) →
    s.spacing = .armed since false → since + 10000 * s.glob.ts ≤ s.clock.now →
    s.slotCount < s.glob.ns → (s.ch c).moc.brakeRunning = false → (s.ch c).moc.motion = .queued →
    (s.ch c).moc.order = some o → atTarget o.dir o.target (s.ch c).hif.pos = false →
    (s.ch c).cal.companion = none → s.leadersOf c = [] →
    ∃ t, exec .spacingTimerRunOut s = .next t ∧ t.startQueue = ahead ++ behind ∧
      t.spacing = .armed s.clock.now false ∧
      (t.ch c).moc.slot = true ∧ (t.ch c).moc.order = some o ∧
      (t.ch c).moc.motion = (match o.dir with | .closing => .closing | .opening => .opening) ∧
      (t.ch c).moc.stall = some (s.clock.now + 150000) ∧ (t.ch c).ctx.runDir = some o.dir ∧
      NeighboursBlanked c s t ∧
      t.links = s.links) ∧
  ∀ (s : State) (x : Client) (p m : BitVec 4) (a : Word) (c : Chan) (d : Dir) (md : Mode) (org : Origin)
    (tgt : Target), MotionTable s → s.ready = true → chanOf p = some c →
    moveModifier m = some (d, md, org) → targetOf a = some tgt → (s.ch c).cal.populated = true →
    s.mayAct x c = true → s.hasRight x .move = true → s.refusal x c d md org = none →
    s.glob.ns ≤ s.slotCount → (∀ e, (s.ch e).moc.motion ≠ .waiting) →
    let others := s.startQueue.filter (· ≠ c)
    let joined := if d = .opening then others.filter s.opens ++ [c] ++ others.filter (!s.opens ·) else others ++ [c]
    ((s.ch c).moc.motion = .idle →
      atTarget d (normalizeTarget (s.ch c).cal (s.ch c).level d .notLearning tgt) (s.ch c).hif.pos = false →
      ∃ t, exec (.move x p m a) s = .next t ∧ (t.ch c).moc.motion = .queued ∧ t.startQueue = joined) ∧
    ((s.ch c).moc.motion = .queued → s.opens c ≠ decide (d = .opening) →
      ∃ t, exec (.move x p m a) s = .next t ∧ (t.ch c).moc.motion = .queued ∧ t.startQueue = joined) ∧
    ((s.ch c).moc.motion = .queued → s.opens c = decide (d = .opening) →
      ∃ t, exec (.move x p m a) s = .next t ∧ (t.ch c).moc.motion = .queued ∧
        t.startQueue = s.startQueue)

/-- R122, R153, R145, R100: at its refresh deadline a MANUAL order ends RELEASED; at its wait deadline a
waiting leader's order ends COMPANION_BLOCKED and a waiting follower's CLAMPED. The channel is IDLE
without an order, its hold kind and wait deadline are gone, and no other channel changes (none of them
waits or is queued). R146 to R148, R150, R151: the opening step that brings a leader to its gate: with the
follower at the requirement and without a close order the drive stays on; with the follower opening fully the
leader waits, its slot released; with the follower IDLE an admitted internal open is queued on it and the leader
waits, or, where that open is at its target and so ends short of Q at once, or is refused, or the follower is in
FAULT, the leader's order ends COMPANION_BLOCKED. R149: the closing step that brings a follower to Q while its leader is
beyond the gate makes it wait. R151, R152: the follower's opening step to Q resumes the waiting leader, the
leader's closing step to G the held follower; either joins the start queue. -/
def Obligations.DeadlinesEndTheOrder : Prop :=
  (∀ (s : State) (c : Chan) (o : Order) (deadline : Nat), s.agenda = [] → s.startQueue = [] →
    (∀ d, d ≠ c → (s.ch d).moc.motion ≠ .waiting) → (s.ch c).moc.order = some o → o.mover = .client →
    deadline ≤ s.clock.now →
    let ended := fun (t : State) (code : Word) => OnlyChannel c s t ∧ SameDevice s t ∧
      (t.ch c).moc.motion = .idle ∧ (t.ch c).moc.order = none ∧ (t.ch c).moc.slot = false ∧
      (t.ch c).moc.wait = none ∧ (t.ch c).hold = .none ∧ (t.ch c).hif.pos = (s.ch c).hif.pos ∧
      (t.ch c).level = (s.ch c).level ∧ (t.ch c).auth = (s.ch c).auth ∧ (t.ch c).cal = (s.ch c).cal ∧
      ∀ y, Hears s y .moveEnded c → Holds t y .moveEnded (some c) (signedWord (s.ch c).hif.pos) code
    (o.mode = .manual → o.refresh = some deadline →
      ∃ t, exec (.refreshDeadlineExpiry c) s = .next t ∧ ended t 3) ∧
    ((s.ch c).moc.motion = .waiting → (s.ch c).moc.wait = some deadline → (s.ch c).hold = .leader →
      ∃ t, exec (.waitDeadlineExpiry c) s = .next t ∧ ended t 11) ∧
    ((s.ch c).moc.motion = .waiting → (s.ch c).moc.wait = some deadline → (s.ch c).hold = .follower →
      ∃ t, exec (.waitDeadlineExpiry c) s = .next t ∧ ended t 12)) ∧
  (∀ (s : State) (p c : Chan) (o : Order) (old pair : Pair), s.calm → s.ready = true →
    (s.ch p).cal.populated = true → (s.ch p).cal.companion = some c → p ≠ c →
    (s.ch p).moc.motion = .opening → (s.ch p).moc.order = some o → o.dir = .opening → o.mover = .client →
    aboveGate o.target (s.ch p).cal.gate = true → (s.ch p).hif.phase = some old →
    stepDir old pair = some .opening → (s.ch p).hif.pos + 1 = ((s.ch p).cal.gate : Int) →
    (s.ch p).cal.gate ≤ 4064 → s.spacingElapsed = false →
    let meets := (s.ch c).hif.posValid = true ∧ ((s.ch p).cal.requirement : Int) ≤ (s.ch c).hif.pos
    let others := fun (t : State) => ∀ d, d ≠ p → d ≠ c → t.ch d = s.ch d
    let waits := fun (t : State) => others t ∧ (t.ch p).moc.motion = .waiting ∧ (t.ch p).hold = .leader ∧
      (t.ch p).moc.wait = some (s.clock.now + 10000000) ∧ (t.ch p).moc.slot = false ∧
      (t.ch p).moc.order = some o ∧ (t.ch p).moc.brakeRunning = true ∧
      (t.ch p).hif.pos = ((s.ch p).cal.gate : Int)
    let blocked := fun (t : State) => others t ∧ (t.ch p).moc.motion = .idle ∧ (t.ch p).moc.order = none ∧
      (t.ch p).moc.slot = false ∧ ∀ y, Hears s y .moveEnded p →
        Holds t y .moveEnded (some p) (signedWord (s.ch p).cal.gate) 11
    let inner := s.normalized c (internalOpen p o s.clock.ms)
    (meets → (∀ k, (s.ch c).moc.order = some k → k.dir = .opening) →
      ∃ t, exec (.hallAcceptance p pair) s = .next t ∧ OnlyChannel p s t ∧
        (t.ch p).moc.motion = .opening ∧ (t.ch p).moc.order = some o ∧
        (t.ch p).moc.slot = (s.ch p).moc.slot) ∧
    (¬ meets → (∀ k, (s.ch c).moc.order = some k → k.dir = .opening ∧ k.target = .toEnd) →
      (s.ch c).moc.motion = .opening → (s.ch c).moc.order ≠ none →
      ∃ t, exec (.hallAcceptance p pair) s = .next t ∧ waits t ∧ t.ch c = s.ch c) ∧
    (¬ meets → (s.ch c).moc.motion = .idle → (s.ch c).moc.order = none →
      s.refusal o.client c .opening .auto o.origin = none →
      (atTarget .opening inner.target (s.ch c).hif.pos = false →
        ∃ t, exec (.hallAcceptance p pair) s = .next t ∧ waits t ∧ (t.ch c).moc.motion = .queued ∧
          (t.ch c).moc.order = some inner ∧ t.startQueue = [c]) ∧
      (atTarget .opening inner.target (s.ch c).hif.pos = true →
        ∃ t, exec (.hallAcceptance p pair) s = .next t ∧ blocked t ∧ (t.ch c).moc.motion = .idle ∧
          (t.ch c).moc.order = none)) ∧
    (¬ meets → (s.ch c).moc.motion = .idle → (s.ch c).moc.order = none →
      s.refusal o.client c .opening .auto o.origin ≠ none →
      ∃ t, exec (.hallAcceptance p pair) s = .next t ∧ blocked t ∧ t.ch c = s.ch c) ∧
    (¬ meets → (s.ch c).moc.motion = .fault →
      ∃ t, exec (.hallAcceptance p pair) s = .next t ∧ blocked t ∧ t.ch c = s.ch c)) ∧
  (∀ (s : State) (p c : Chan) (o : Order) (old pair : Pair), s.calm → s.ready = true →
    (s.ch c).cal.populated = true → (s.ch p).cal.companion = some c → p ≠ c →
    (s.ch c).moc.motion = .closing → (s.ch c).moc.order = some o → o.dir = .closing → o.target = .toEnd →
    (s.ch c).hif.phase = some old → stepDir old pair = some .closing →
    (s.ch c).hif.pos - 1 = ((s.ch p).cal.requirement : Int) → (s.ch p).cal.requirement ≤ 4064 →
    ((s.ch p).hif.posValid = false ∨ ((s.ch p).cal.gate : Int) < (s.ch p).hif.pos) →
    ∃ t, exec (.hallAcceptance c pair) s = .next t ∧ OnlyChannel c s t ∧
      (t.ch c).moc.motion = .waiting ∧ (t.ch c).hold = .follower ∧
      (t.ch c).moc.wait = some (s.clock.now + 10000000) ∧ (t.ch c).moc.slot = false ∧
      (t.ch c).moc.order = some o ∧ (t.ch c).moc.brakeRunning = true ∧
      (t.ch c).hif.pos = ((s.ch p).cal.requirement : Int)) ∧
  (∀ (s : State) (p c : Chan) (o k : Order) (old pair : Pair), s.agenda = [] → s.startQueue = [] →
    s.ready = true → (s.ch c).cal.populated = true → (s.ch p).cal.companion = some c → p ≠ c →
    (∀ d, d ≠ p → (s.ch d).moc.motion ≠ .waiting) → (s.ch p).moc.motion = .waiting →
    (s.ch p).hold = .leader → (s.ch p).moc.order = some o → (s.ch c).cal.companion = none →
    (s.ch c).moc.motion = .opening → (s.ch c).moc.order = some k → k.dir = .opening →
    atTarget .opening k.target ((s.ch c).hif.pos + 1) = false → (s.ch c).hif.posValid = true →
    (s.ch c).hif.phase = some old → stepDir old pair = some .opening →
    ((s.ch p).cal.requirement : Int) ≤ (s.ch c).hif.pos + 1 → -1025 ≤ (s.ch c).hif.pos →
    (s.ch c).hif.pos + 1 ≤ 5119 → s.spacingElapsed = false →
    ∃ t, exec (.hallAcceptance c pair) s = .next t ∧ (∀ d, d ≠ p → d ≠ c → t.ch d = s.ch d) ∧
      t.startQueue = [p] ∧ (t.ch c).moc.motion = .opening ∧
      t.ch p = { s.ch p with
        hold := .none, moc := { (s.ch p).moc with motion := .queued, wait := none } }) ∧
  (∀ (s : State) (p c : Chan) (o k : Order) (old pair : Pair), s.agenda = [] → s.startQueue = [] →
    s.ready = true → (s.ch p).cal.populated = true → (s.ch p).cal.companion = some c → p ≠ c →
    s.leadersOf c = [p] → s.leadersOf p = [] →
    (∀ d, d ≠ c → (s.ch d).moc.motion ≠ .waiting) → (s.ch c).moc.motion = .waiting →
    (s.ch c).hold = .follower → (s.ch c).moc.order = some o →
    (s.ch p).moc.motion = .closing → (s.ch p).moc.order = some k → k.dir = .closing → k.target = .toEnd →
    (s.ch p).hif.posValid = true → (s.ch p).hif.phase = some old → stepDir old pair = some .closing →
    (s.ch p).hif.pos - 1 = ((s.ch p).cal.gate : Int) → (s.ch p).cal.gate ≤ 4064 →
    s.spacingElapsed = false →
    ∃ t, exec (.hallAcceptance p pair) s = .next t ∧ (∀ d, d ≠ p → d ≠ c → t.ch d = s.ch d) ∧
      t.startQueue = [c] ∧ (t.ch p).moc.motion = .closing ∧
      t.ch c = { s.ch c with
        hold := .none, moc := { (s.ch c).moc with motion := .queued, wait := none } })

/-- R130, R184: the override window's expiry clears the window and both levels; a sector switch in POLLED
shows the other sector for the next 1 ms; STSEL takes its level, which in DIRECT selects the sector shown. The
eight lines and STSYNC in both modes: all low before READY; from READY on, in POLLED by the sector phase, in DIRECT
by STSEL, STSYNC is high in sector 0, where a line shows CLOSED (IDLE, position valid, counter at or below 24), and
in sector 1 a line shows ATTENTION (the latched flag or FAULT); an unpopulated channel's line is low in both.
R80: the drive outputs are high-impedance until READY, then at the active
level of the record's polarity where that drive is on and at the inactive level elsewhere, never both active.
R183: a link's attention line is low while its event queue holds a record. -/
def Obligations.WindowSectorAndStsel : Prop :=
  ∀ (s : State) (c : Chan) (b : Bool), s.agenda = [] →
    (∀ d, (s.ch c).auth.window = some d → d ≤ s.clock.now →
      exec (.overrideWindowExpiry c) s = .next
        (updAuth c (fun k => { k with window := none, pinchLevel := 0, overrideLevel := 0 }) s)) ∧
    (s.ready = true → s.stb.mode = .polled → s.stb.since + 1000 ≤ s.clock.now →
      exec .sectorSwitch s = .next { s with stb :=
        { s.stb with sectorOne := !s.stb.sectorOne, since := s.stb.since + 1000 } }) ∧
    exec (.stselChange b) s = .next { s with pins := { s.pins with stsel := b } } ∧
    (s.ready = false → s.stsync = false ∧ s.statusLine c = false) ∧
    ((s.ch c).cal.populated = false → s.statusLine c = false) ∧
    (let zero := s.stb.mode = .polled ∧ s.stb.sectorOne = false ∨ s.stb.mode = .direct ∧ s.pins.stsel = false
     s.ready = true → (s.stsync = true ↔ zero) ∧
      ((s.ch c).cal.populated = true →
        (zero → (s.statusLine c = true ↔
          (s.ch c).moc.motion = .idle ∧ (s.ch c).hif.posValid = true ∧ (s.ch c).hif.pos ≤ 24)) ∧
        (¬ zero → (s.statusLine c = true ↔
          (s.ch c).moc.latched = true ∨ (s.ch c).moc.motion = .fault)))) ∧
    (let active : PinLevel := if (s.ch c).cal.polarity = .activeHigh then .high else .low
     let inactive : PinLevel := if (s.ch c).cal.polarity = .activeHigh then .low else .high
     (s.ready = false → ∀ d, s.driveOutput c d = .highImpedance) ∧
     (s.ready = true → ∀ d, s.driveOutput c d =
       match (s.ch c).moc.motion, d with
       | .closing, .closing => active
       | .opening, .opening => active
       | .reversing, .opening => active
       | _, _ => inactive) ∧
     ¬ (s.driveOutput c .closing = active ∧ s.driveOutput c .opening = active)) ∧
    ∀ x, s.attentionLow x = true ↔ (s.link x).queue ≠ []

/-! ## Authority -/

/-- R117, R118, R119: a MOVE on a populated channel with a well-formed argument is refused by the first
check that fails, in the order of R117: rights and panel mask, another client's lockout, a claim, FAULT
or calibration, the level, the inhibit, the supply, and, for a close, a reversal in progress or another client's
MANUAL open whose refresh deadline has not passed, on a channel that is not WAITING. -/
def Obligations.MoveIsJudgedInOrder : Prop :=
  ∀ (s : State) (x : Client) (p m : BitVec 4) (a : Word) (c : Chan) (d : Dir) (md : Mode) (org : Origin)
    (tgt : Target), s.agenda = [] → s.ready = true → chanOf p = some c → moveModifier m = some (d, md, org) →
    targetOf a = some tgt → (s.ch c).cal.populated = true →
    let answer := fun r => exec (.move x p m a) s = .next (setReply x r 0 (received x s))
    let permitted := s.mayAct x c = true ∧ s.hasRight x .move = true
    let free := dropClient (s.ch c).auth.lockouts x = 0
    let unclaimed := (s.ch c).auth.claims = 0
    let fit := (s.ch c).moc.motion ≠ .fault ∧ s.calLoaded = true ∧ s.erasing = false
    let known := md = .manual ∨ (s.ch c).level = .learned ∨ (d = .opening ∧ (s.ch c).level = .endsKnown)
    let allowed := d = .opening ∨ org = .localReq ∨ (s.ch c).auth.inhibit = false
    let supplied := (s.ch c).moc.motion ≠ .idle ∨ s.sup.state = .normal
    (¬ permitted → answer .notPermitted) ∧
    (permitted → ¬ free → answer .lockedOut) ∧
    (permitted → free → ¬ unclaimed → answer .claimed) ∧
    (permitted → free → unclaimed → ¬ fit → answer .notReady) ∧
    (permitted → free → unclaimed → fit → ¬ known → answer .unlearned) ∧
    (permitted → free → unclaimed → fit → known → ¬ allowed → answer .inhibited) ∧
    (permitted → free → unclaimed → fit → known → allowed → ¬ supplied → answer .supply) ∧
    (permitted → free → unclaimed → fit → known → allowed → supplied → d = .closing →
      ((s.ch c).moc.motion = .brakingPinch ∨ (s.ch c).moc.motion = .reversing) →
      (s.ch c).moc.order = none → answer .busy) ∧
    (∀ o deadline, permitted → free → unclaimed → fit → known → allowed → supplied → d = .closing →
      ((s.ch c).moc.motion = .queued ∨ (s.ch c).moc.motion = .brakingOrder ∨
        (s.ch c).moc.motion = .opening) →
      (s.ch c).moc.order = some o → o.dir = .opening → o.mode = .manual → o.client ≠ x →
      o.refresh = some deadline → s.clock.now ≤ deadline → answer .busy)

/-- R120, R79, R106, R109, R110, R81, R131: an AUTO LOCAL close to END on an IDLE LEARNED channel with a
slot free, the queue empty, the spacing run out and the brake expired is ACCEPTED with END, and its close
drive is on at once: CLOSING, with the order, the slot, a stall timer of 150 ms and the spacing timer
armed; of the other channels only the blank counts change, as R44 says. -/
def Obligations.MoveCloseStartsTheDrive : Prop :=
  ∀ (s : State) (x : Client) (p : BitVec 4) (c : Chan), s.agenda = [] → s.ready = true →
    s.calLoaded = true → s.erasing = false → chanOf p = some c → (s.ch c).cal.populated = true →
    s.mayAct x c = true → s.hasRight x .move = true → s.lockedOut x c = false →
    (s.ch c).auth.claims = 0 → (s.ch c).moc.motion = .idle → (s.ch c).moc.order = none →
    (s.ch c).moc.brakeRunning = false → (s.ch c).level = .learned → s.sup.state = .normal →
    s.startQueue = [] → s.spacingElapsed = true → s.slotCount < s.glob.ns → s.leadersOf c = [] →
    ∃ t, exec (.move x p 2 0xFFFF) s = .next t ∧ Replies x .accepted 0xFFFF t ∧
      (t.ch c).moc.motion = .closing ∧
      (t.ch c).moc.order = some ⟨.closing, .auto, .toEnd, .localReq, .client, x, .notLearning, 0, none, s.clock.ms⟩ ∧
      (t.ch c).moc.slot = true ∧ (t.ch c).moc.stall = some (s.clock.now + 150000) ∧
      (t.ch c).ctx.runDir = some .closing ∧ (t.ch c).ctx.seeded = false ∧ (t.ch c).ctx.smoothed = 0 ∧
      (t.ch c).hif.pos = (s.ch c).hif.pos ∧ (t.ch c).hif.fifo = [] ∧ t.startQueue = [] ∧
      t.spacing = .armed s.clock.now false ∧
      NeighboursBlanked c s t ∧
      ∀ y, y ≠ x → t.link y = s.link y

/-- R117, R120, R79: every MOVE that passes the checks and is no refresh is ACCEPTED with its target as
normalized, and its order, with the direction, mode, origin, mover and acceptance time of the request and
the k of R131, is handed to MOC. R121: a refresh by the order's own client moves the refresh deadline to
150 ms from now and nothing else, and is ACCEPTED with the target held. R78, R95, on a channel in no companion
link, with no other channel waiting or queued: in BRAKING the braking goes on with the slot kept; in CLOSING and
OPENING the drive, its run and its stall timer go on for the same direction, and for the other the drive turns off and
the channel brakes with its slot; in WAITING the deadline and the hold are dropped and the channel queues; the order
held ends REPLACED. An open that meets a reversal ends it REV_REPLACED: in REVERSING the drive stays on and the
channel is OPENING in the same run, in BRAKING it waits for the brake expiry; the slot is kept. -/
def Obligations.MoveIsAdmitted : Prop :=
  (∀ (s : State) (x : Client) (p m : BitVec 4) (a : Word) (c : Chan) (d : Dir) (md : Mode) (org : Origin)
    (tgt : Target), s.ready = true → chanOf p = some c → moveModifier m = some (d, md, org) →
    targetOf a = some tgt → (s.ch c).cal.populated = true → s.mayAct x c = true →
    s.hasRight x .move = true → s.refusal x c d md org = none →
    let k := if d = .closing ∧ md = .manual ∧ org = .localReq ∧ (s.ch c).auth.window.isSome = true
      then min 2 ((s.ch c).auth.pinchLevel + 1) else 0
    let o : Order := ⟨d, md, tgt, org, .client, x, .notLearning, k,
      if md = .manual then some (s.clock.now + 150000) else none, s.clock.ms⟩
    (s.isRefresh x c d md = false →
      exec (.move x p m a) s = .next (setReply x .accepted (targetWord (s.normalized c o).target)
        (settle (handOver c o (noteOverride c k (received x s)))))) ∧
    (∀ held, s.agenda = [] → md = .manual → (s.ch c).moc.order = some held → held.mode = .manual →
      held.mover = .client → held.client = x → held.dir = d →
      exec (.move x p m a) s = .next (setReply x .accepted (targetWord held.target)
        (updMoc c (fun j => { j with order := some { held with refresh := some (s.clock.now + 150000) } })
          (received x s))))) ∧
  ∀ (s : State) (x : Client) (p m : BitVec 4) (a : Word) (c : Chan) (d : Dir) (md : Mode) (org : Origin)
    (tgt : Target), s.agenda = [] → s.startQueue = [] → (∀ e, e ≠ c → (s.ch e).moc.motion ≠ .waiting) →
    s.ready = true → chanOf p = some c → moveModifier m = some (d, md, org) → targetOf a = some tgt →
    (s.ch c).cal.populated = true → s.mayAct x c = true → s.hasRight x .move = true →
    s.refusal x c d md org = none → s.isRefresh x c d md = false → (s.ch c).cal.companion = none →
    s.leadersOf c = [] → s.spacingElapsed = false →
    let old := (s.ch c).moc
    let target := normalizeTarget (s.ch c).cal (s.ch c).level d .notLearning tgt
    let k := if d = .closing ∧ md = .manual ∧ org = .localReq ∧ (s.ch c).auth.window.isSome = true
      then min 2 ((s.ch c).auth.pinchLevel + 1) else 0
    let n : Order := ⟨d, md, target, org, .client, x, .notLearning, k,
      if md = .manual then some (s.clock.now + 150000) else none, s.clock.ms⟩
    let posted := fun (t : State) (k : EventKind) (w : Word) => Replies x .accepted (targetWord target) t ∧
      OnlyChannel c s t ∧ (t.ch c).hif.pos = (s.ch c).hif.pos ∧ (t.ch c).ctx = (s.ch c).ctx ∧
      ∀ y, Hears s y k c → Holds t y k (some c) (signedWord (s.ch c).hif.pos) w
    (old.order ≠ none →
      (old.motion = .brakingOrder ∨ old.motion.drive = some d ∧ old.motion ≠ .reversing →
        ∃ t, exec (.move x p m a) s = .next t ∧ posted t .moveEnded 5 ∧
          (t.ch c).moc = { old with order := some n }) ∧
      (old.motion.drive ≠ some d → old.motion = .closing ∨ old.motion = .opening →
        ∃ t, exec (.move x p m a) s = .next t ∧ posted t .moveEnded 5 ∧
          (t.ch c).moc = { old with
            order := some n, motion := .brakingOrder, stall := none, brakeRunning := true
            brakeExpiry := s.clock.now + 10000 * (s.ch c).cal.brake }) ∧
      (old.motion = .waiting →
        ∃ t, exec (.move x p m a) s = .next t ∧ posted t .moveEnded 5 ∧ (t.ch c).hold = .none ∧
          (t.ch c).moc = { old with order := some n, motion := .queued, wait := none } ∧
          t.startQueue = [c])) ∧
    (old.order = none → s.inReversal c = true → d = .opening →
      ∃ t, exec (.move x p m a) s = .next t ∧ posted t .reversalEnd 17 ∧
        (t.ch c).moc = { old with
          order := some n, revTarget := none
          motion := if old.motion = .reversing then .opening else .brakingOrder })

/-- R123, R100, R82: HALT ends the order of the channel it names, HALTED: IDLE, no order, the slot
released, the brake timer started if a drive was on; data 1. A channel without an order is left alone,
data 0. -/
def Obligations.HaltEndsTheOrder : Prop :=
  ∀ (s : State) (x : Client) (p : BitVec 4) (c : Chan), s.calm → s.ready = true → chanOf p = some c →
    (s.ch c).cal.populated = true → s.mayAct x c = true → s.hasRight x .move = true →
    s.lockedOut x c = false → (s.ch c).moc.motion ≠ .fault → s.inReversal c = false →
    ((s.ch c).moc.order = none →
      exec (.halt x p 0 0) s = .next (setReply x .done 0 (received x s))) ∧
    (∀ o, (s.ch c).moc.order = some o → o.mover = .client →
      ∃ t, exec (.halt x p 0 0) s = .next t ∧ Replies x .done 1 t ∧ OnlyChannel c s t ∧ SameDevice s t ∧
        (t.ch c).moc.motion = .idle ∧ (t.ch c).moc.order = none ∧ (t.ch c).moc.slot = false ∧
        (t.ch c).hif.pos = (s.ch c).hif.pos ∧ (t.ch c).auth = (s.ch c).auth ∧
        ((s.ch c).moc.motion.drive ≠ none → (t.ch c).moc.brakeRunning = true ∧
          (t.ch c).moc.brakeExpiry = s.clock.now + 10000 * (s.ch c).cal.brake) ∧
        (∀ y, Hears s y .moveEnded c → Holds t y .moveEnded (some c) (signedWord (s.ch c).hif.pos) 4))

/-- R124, R125, R94: STOP CLAIM stops the channel, its order CLAIMED or its reversal REV_CLAIMED, and the
requester's claim stands on it; the data is the number of claims. The other clients' claims and the
lockouts stand. -/
def Obligations.StopClaimStopsAndClaims : Prop :=
  ∀ (s : State) (x : Client) (p : BitVec 4) (c : Chan), s.calm → s.ready = true → chanOf p = some c →
    (s.ch c).cal.populated = true → s.mayAct x c = true → s.hasRight x .claim = true →
    (s.ch c).moc.motion ≠ .fault → (∀ o, (s.ch c).moc.order = some o → o.mover = .client) →
    ∃ t, exec (.stopClaim x p 0 0) s = .next t ∧
      Replies x .done (natWord (clientCount (t.ch c).auth.claims)) t ∧
      OnlyChannel c s t ∧ hasClient (t.ch c).auth.claims x = true ∧
      (∀ y, y ≠ x → hasClient (t.ch c).auth.claims y = hasClient (s.ch c).auth.claims y) ∧
      (t.ch c).auth.lockouts = (s.ch c).auth.lockouts ∧ (t.ch c).hif.pos = (s.ch c).hif.pos ∧
      ((s.ch c).moc.order.isSome = true ∨ s.inReversal c = true →
        (t.ch c).moc.motion = .idle ∧ (t.ch c).moc.order = none ∧ (t.ch c).moc.revTarget = none ∧
        (t.ch c).moc.slot = false) ∧
      ((s.ch c).moc.order.isSome = true → s.inReversal c = false → ∀ y, Hears s y .moveEnded c →
        Holds t y .moveEnded (some c) (signedWord (s.ch c).hif.pos) 6) ∧
      (s.inReversal c = true → ∀ y, Hears s y .reversalEnd c →
        Holds t y .reversalEnd (some c) (signedWord (s.ch c).hif.pos) 19)

/-- R123, R124, R126, R133, R99, section 5.4 of the scope: with panel 15, HALT, STOP CLAIM, ACK REVERSAL
and PANEL RESTART act on every populated channel of the client's panel mask that their checks do not pass
over, and on no other channel; STOP RELEASE drops the client's claim on every channel not in FAULT. R124: each channel
that STOP CLAIM claims is stopped, its order CLAIMED or its reversal REV_CLAIMED, its slot released and its drive off;
the data is the number of channels claimed. -/
def Obligations.PanelFifteenActsOnEach : Prop :=
  ∀ (s : State) (x : Client), s.calm → s.ready = true → s.hasRight x .move = true →
    s.hasRight x .claim = true → (∀ c o, (s.ch c).moc.order = some o → o.mover = .client) →
    let own := fun c => (s.ch c).cal.populated = true ∧ s.mayAct x c = true
    (∃ t, exec (.halt x 15 0 0) s = .next t ∧ (t.link x).reply.result = .done ∧
      (∀ c, own c ∧ s.lockedOut x c = false ∧ (s.ch c).moc.motion ≠ .fault ∧ s.inReversal c = false ∧
        (s.ch c).moc.order ≠ none → (t.ch c).moc.motion = .idle ∧ (t.ch c).moc.order = none) ∧
      (∀ c, ¬ own c ∨ s.lockedOut x c = true ∨ (s.ch c).moc.motion = .fault ∨ s.inReversal c = true ∨
        (s.ch c).moc.order = none → t.ch c = s.ch c)) ∧
    (∃ t, exec (.stopClaim x 15 0 0) s = .next t ∧ (t.link x).reply.result = .done ∧
      (∃ cs : List Chan, cs.Nodup ∧ (∀ c, c ∈ cs ↔ own c ∧ (s.ch c).moc.motion ≠ .fault) ∧
        (t.link x).reply.data = natWord cs.length) ∧
      (∀ c, own c → (s.ch c).moc.motion ≠ .fault →
        let posted := fun (k : EventKind) (code : Word) => ∀ y, Hears s y k c →
          Holds t y k (some c) (signedWord (s.ch c).hif.pos) code
        (t.ch c).auth = { (s.ch c).auth with claims := (t.ch c).auth.claims } ∧
        (∀ y, hasClient (t.ch c).auth.claims y = (hasClient (s.ch c).auth.claims y || decide (y = x))) ∧
        ((s.ch c).moc.order ≠ none ∨ s.inReversal c = true →
          (t.ch c).moc.motion = .idle ∧ (t.ch c).moc.order = none ∧ (t.ch c).moc.revTarget = none ∧
          (t.ch c).moc.slot = false ∧ (t.ch c).moc.latched = (s.ch c).moc.latched ∧
          ((s.ch c).moc.motion.drive ≠ none → (t.ch c).moc.brakeRunning = true ∧ (t.ch c).moc.stall = none)) ∧
        (s.inReversal c = true → posted .reversalEnd 19) ∧
        (s.inReversal c = false → (s.ch c).moc.order ≠ none → posted .moveEnded 6) ∧
        (s.inReversal c = false → (s.ch c).moc.order = none → (t.ch c).moc = (s.ch c).moc)) ∧
      (∀ c, ¬ own c ∨ (s.ch c).moc.motion = .fault → t.ch c = s.ch c)) ∧
    (∃ t, exec (.ackReversal x 15 0 0) s = .next t ∧ (t.link x).reply.result = .done ∧
      (∀ c, own c ∧ (s.ch c).moc.motion ≠ .fault →
        t.ch c = { s.ch c with moc := { (s.ch c).moc with latched := false } }) ∧
      (∀ c, ¬ own c ∨ (s.ch c).moc.motion = .fault → t.ch c = s.ch c)) ∧
    (∃ t, exec (.stopRelease x 15 0 0) s = .next t ∧ (t.link x).reply.result = .done ∧
      (∀ c, (s.ch c).moc.motion ≠ .fault → hasClient (t.ch c).auth.claims x = false) ∧
      (∀ c, (s.ch c).moc.motion = .fault → t.ch c = s.ch c)) ∧
    ((∃ c, own c ∧ s.lockedOut x c = false) →
      ∃ t, exec (.panelRestart x 15 0 0) s = .next t ∧ (t.link x).reply.result = .done ∧
        (∀ c, own c ∧ s.lockedOut x c = false → (t.ch c).moc.motion = .idle ∧ (t.ch c).moc.order = none ∧
          (t.ch c).hif.posValid = false ∧ (t.ch c).level = .noneKnown) ∧
        (∀ c, ¬ own c ∨ s.lockedOut x c = true → t.ch c = s.ch c))

/-- R126, R129, R133: STOP RELEASE drops the requester's claim on the channel, LOCKOUT CLEAR its lockout
on every channel of the mask, ACK REVERSAL the reversal-latched flag; none of them changes anything else
of any channel, or any order. -/
def Obligations.ReleasesChangeOneMark : Prop :=
  ∀ (s : State) (x : Client) (p : BitVec 4) (c : Chan) (a : Word) (mask : BitVec 8), s.agenda = [] →
    s.ready = true →
    (chanOf p = some c → (s.ch c).moc.motion ≠ .fault →
      exec (.stopRelease x p 0 0) s = .next (setReply x .done
        (natWord (clientCount (dropClient (s.ch c).auth.claims x)))
        (updAuth c (fun k => { k with claims := dropClient k.claims x }) (received x s)))) ∧
    (chanOf p = some c → (s.ch c).moc.motion ≠ .fault → (s.ch c).cal.populated = true →
      exec (.ackReversal x p 0 0) s = .next (setReply x .done (if (s.ch c).moc.latched then 1 else 0)
        (updMoc c (fun k => { k with latched := false }) (received x s)))) ∧
    (panelMask a = some mask →
      ∃ t, exec (.lockoutClear x 15 0 a) s = .next t ∧
        t = { s with chans := t.chans, links := t.links } ∧ (t.link x).reply.result = .done ∧
        (∀ d, inMask mask d = true → hasClient (t.ch d).auth.lockouts x = false) ∧
        (∀ d, t.ch d = { s.ch d with
          auth := { (s.ch d).auth with
            lockouts := if inMask mask d then dropClient (s.ch d).auth.lockouts x
              else (s.ch d).auth.lockouts } }) ∧
        (t.link x).reply.data = maskWord (maskWhere fun d => hasClient (t.ch d).auth.lockouts x))

/-- R127: LOCKOUT SET on channels of the requester's mask that no other client has locked: the requester
holds the lockout on each, another client's order on one ends LOCKED_OUT, the requester's own order and
the channels outside the mask stand. -/
def Obligations.LockoutSetLocksAndStops : Prop :=
  ∀ (s : State) (x : Client) (a : Word) (mask : BitVec 8), s.calm → s.ready = true →
    panelMask a = some mask → mask ≠ 0 → s.hasRight x .lockout = true →
    (∀ c, inMask mask c = true → (s.ch c).cal.populated = true ∧ s.mayAct x c = true ∧ s.lockedOut x c = false) →
    (∀ c o, (s.ch c).moc.order = some o → o.mover = .client) →
    ∃ t, exec (.lockoutSet x 15 0 a) s = .next t ∧ (t.link x).reply.result = .done ∧
      (∀ c, inMask mask c = false → t.ch c = s.ch c) ∧
      (∀ c, inMask mask c = true → hasClient (t.ch c).auth.lockouts x = true ∧
        (t.ch c).auth.claims = (s.ch c).auth.claims) ∧
      (∀ c o, inMask mask c = true → (s.ch c).moc.order = some o → o.client ≠ x →
        (t.ch c).moc.motion = .idle ∧ (t.ch c).moc.order = none ∧ (t.ch c).moc.slot = false ∧
        ∀ y, Hears s y .moveEnded c →
          Holds t y .moveEnded (some c) (signedWord (s.ch c).hif.pos) 7) ∧
      (∀ c o, inMask mask c = true → (s.ch c).moc.order = some o → o.client = x →
        (t.ch c).moc = (s.ch c).moc)

/-- R99, R17, R28, R158: PANEL RESTART: the channel is IDLE without order, slot, flag, fault reason or
no-step count, its position 0 and invalid, its phase unknown, its pair filter, FIFO, gap mark, quadrature-error,
contrary-step and drift counts and load context cleared, its level NONE; claims, lockouts and the inhibit are kept; no
other channel changes. -/
def Obligations.PanelRestartClearsTheChannel : Prop :=
  ∀ (s : State) (x : Client) (p : BitVec 4) (c : Chan), s.calm → s.ready = true → chanOf p = some c →
    (s.ch c).cal.populated = true → s.mayAct x c = true → s.hasRight x .move = true →
    s.lockedOut x c = false → (∀ o, (s.ch c).moc.order = some o → o.mover = .client) →
    ∃ t, exec (.panelRestart x p 0 0) s = .next t ∧ Replies x .done 0 t ∧ OnlyChannel c s t ∧
      (t.ch c).moc.motion = .idle ∧ (t.ch c).moc.order = none ∧
      ((s.ch c).moc.order.isSome = true ∨ s.inReversal c = true → (t.ch c).moc.slot = false) ∧
      (t.ch c).moc.latched = false ∧ (t.ch c).moc.noStep = 0 ∧ (t.ch c).moc.fault = none ∧
      (t.ch c).hif = ⟨none, none, 0, 0, false, [], false, 0, 0, 0⟩ ∧ (t.ch c).ctx = resetContext ∧
      (t.ch c).level = .noneKnown ∧ (t.ch c).auth.claims = (s.ch c).auth.claims ∧
      (t.ch c).auth.lockouts = (s.ch c).auth.lockouts ∧ (t.ch c).auth.inhibit = (s.ch c).auth.inhibit ∧
      (t.ch c).auth.overrideLevel = 0 ∧ (t.ch c).cal = (s.ch c).cal

/-- R134, R135, R180: 1000 ms after its last valid frame a client lapses: its claims and lockouts are
gone from every channel and the staging buffer it owned is discarded; orders, groups and every other
mark stand; CLIENT_LAPSE reaches the other clients whose mask selects it and not the client itself. -/
def Obligations.LapseDropsWhatTheClientHeld : Prop :=
  ∀ (s : State) (x : Client), s.agenda = [] → (s.link x).lapsed = false →
    (s.link x).lastFrame + 1000000 ≤ s.clock.now →
    ∃ t, exec (.lapseTimerExpiry x) s = .next t ∧
      t = { s with chans := t.chans, links := t.links, staging := t.staging } ∧
      (∀ c, t.ch c = { s.ch c with auth := { (s.ch c).auth with
        claims := dropClient (s.ch c).auth.claims x, lockouts := dropClient (s.ch c).auth.lockouts x } }) ∧
      t.link x = { s.link x with lapsed := true } ∧
      (s.staging.owner = some x → t.staging = emptyStaging) ∧
      (s.staging.owner ≠ some x → t.staging = s.staging) ∧
      (∀ y, y ≠ x → (s.link y).mask.getLsbD 14 = true → Holds t y .clientLapse none 0 (natWord x.val))

/-! ## Groups and learning -/

/-- R137, R138, R139: a GROUP MOVE with one member that passes its checks, every other member refused: ACCEPTED with
the index of the lowest free entry and the next serial, from 255 to 1; the entry is the requester's; the one member
holds the group's AUTO order to END, and each other member is SKIPPED with its refusal. First a close with that member
IDLE and LEARNED, the others outside the requester's panel mask or under a claim: CLOSING or QUEUED. Then either
direction and every state of a member in no companion link, with the spacing timer running, no other channel waiting or
queued, and any order held a client's own: IDLE it is QUEUED, or, opening at its soft stop, ends TARGET at once and
records REACHED, which completes the entry (R141; that END_REACHED is posted there is the model's choice, log entry 16); QUEUED, BRAKING and under a drive the order held ends REPLACED, with
the drive kept in the same direction and braked in the other; WAITING it queues; in a reversal an open ends it
REV_REPLACED. An open closes the override window (R130). R139: where no member passes its checks, the request is
refused with the result of the lowest-numbered member and nothing else changes; R138: without a free entry it is
BUSY. -/
def Obligations.GroupMoveTakesAnEntry : Prop :=
  (∀ (s : State) (x : Client) (a : Word) (mask : BitVec 8) (c : Chan) (g : Fin 4), s.calm → s.ready = true →
    s.calLoaded = true → s.erasing = false → panelMask a = some mask → inMask mask c = true →
    (∀ d, d ≠ c → inMask mask d = true → (s.ch d).cal.populated = true →
      s.mayAct x d = false ∨ (s.lockedOut x d = false ∧ (s.ch d).auth.claims ≠ 0)) →
    (s.ch c).cal.populated = true → s.mayAct x c = true → s.hasRight x .group = true →
    s.group g = none → (∀ h : Fin 4, h < g → s.group h ≠ none) → s.lockedOut x c = false →
    (s.ch c).auth.claims = 0 → (s.ch c).moc.motion = .idle → (s.ch c).moc.order = none →
    (s.ch c).level = .learned → s.sup.state = .normal → s.leadersOf c = [] →
    let n := if 255 ≤ s.serial then 1 else s.serial + 1
    ∃ t e, exec (.groupMove x 15 0 a) s = .next t ∧
      Replies x .accepted (bytesWord g.val n) t ∧ t.serial = n ∧
      t.group g = some e ∧ e.serial = n ∧ e.owner = x ∧ e.dir = .closing ∧
      (∀ d, e.members[d] = if d = c then some .live
        else if inMask mask d = true ∧ (s.ch d).cal.populated = true then
          some (.skipped (if s.mayAct x d then .claimed else .notPermitted))
        else none) ∧
      (∀ g', g' ≠ g → t.group g' = s.group g') ∧
      (t.ch c).moc.order = some ⟨.closing, .auto, .toEnd, .localReq, .group g, x, .notLearning, 0, none, s.clock.ms⟩ ∧
      ((t.ch c).moc.motion = .closing ∧ NeighboursBlanked c s t ∨
        (t.ch c).moc.motion = .queued ∧ OnlyChannel c s t)) ∧
  (∀ (s : State) (x : Client) (m : BitVec 4) (a : Word) (mask : BitVec 8) (dir : Dir) (org : Origin)
    (c : Chan) (g : Fin 4), s.agenda = [] → s.ready = true → s.calLoaded = true → s.erasing = false →
    groupModifier m = some (dir, org) → panelMask a = some mask → s.hasRight x .group = true →
    s.group g = none → (∀ h : Fin 4, h < g → s.group h ≠ none) → inMask mask c = true →
    (s.ch c).cal.populated = true → s.memberRefusal x dir org c = none →
    (∀ d, d ≠ c → inMask mask d = true → (s.ch d).cal.populated = true → s.memberRefusal x dir org d ≠ none) →
    (s.ch c).cal.companion = none → s.leadersOf c = [] → s.spacingElapsed = false →
    (∀ d, d ≠ c → (s.ch d).moc.motion ≠ .waiting) →
    s.startQueue = (if (s.ch c).moc.motion = .queued then [c] else []) →
    (∀ o, (s.ch c).moc.order = some o → o.mover = .client) →
    let old := (s.ch c).moc
    let n := if 255 ≤ s.serial then 1 else s.serial + 1
    let o : Order := ⟨dir, .auto, normalizeTarget (s.ch c).cal (s.ch c).level dir .notLearning .toEnd, org,
      .group g, x, .notLearning, 0, none, s.clock.ms⟩
    let posted := fun (t : State) (k : EventKind) (w : Word) => ∀ y, Hears s y k c →
      Holds t y k (some c) (signedWord (s.ch c).hif.pos) w
    let others := fun (e : GroupEntry) => ∀ d : Chan, d ≠ c → e.members[d] =
      if inMask mask d = true ∧ (s.ch d).cal.populated = true then
        (s.memberRefusal x dir org d).map MemberOutcome.skipped else none
    let taken := fun (t : State) => Replies x .accepted (bytesWord g.val n) t ∧ t.serial = n ∧
      OnlyChannel c s t ∧ (t.ch c).hif.pos = (s.ch c).hif.pos ∧
      (t.ch c).auth = (if dir = .opening then { (s.ch c).auth with window := none, pinchLevel := 0, overrideLevel := 0 }
        else (s.ch c).auth) ∧
      ∀ h, h ≠ g → (∀ e, s.group h = some e → e.members[c] ≠ some .live) → t.group h = s.group h
    let runs := fun (t : State) => taken t ∧ (t.ch c).moc.order = some o ∧ ∃ e, t.group g = some e ∧
      e.serial = n ∧ e.owner = x ∧ e.dir = dir ∧ e.origin = org ∧ e.members[c] = some .live ∧ others e
    (old.motion = .idle → old.order = none →
      (atTarget dir o.target (s.ch c).hif.pos = false →
        ∃ t, exec (.groupMove x 15 m a) s = .next t ∧ runs t ∧ (t.ch c).moc.motion = .queued ∧
          t.startQueue = [c]) ∧
      (atTarget dir o.target (s.ch c).hif.pos = true →
        ∃ t, exec (.groupMove x 15 m a) s = .next t ∧ taken t ∧ t.group g = none ∧ t.startQueue = [] ∧
          (t.ch c).moc.motion = .idle ∧ (t.ch c).moc.order = none ∧ posted t .endReached 1 ∧
          posted t .moveEnded 0 ∧
          ∀ y, (s.link y).mask.getLsbD 12 = true → Holds t y .groupDone none
            (maskWord (maskWhere fun d : Chan =>
              decide (d ≠ c ∧ inMask mask d = true ∧ (s.ch d).cal.populated = true)))
            (bytesWord g.val n))) ∧
    (old.order ≠ none →
      (old.motion = .queued →
        ∃ t, exec (.groupMove x 15 m a) s = .next t ∧ runs t ∧ posted t .moveEnded 5 ∧
          (t.ch c).moc = { old with order := some o } ∧ t.startQueue = [c]) ∧
      (old.motion = .brakingOrder ∨ old.motion.drive = some dir ∧ old.motion ≠ .reversing →
        ∃ t, exec (.groupMove x 15 m a) s = .next t ∧ runs t ∧ posted t .moveEnded 5 ∧
          (t.ch c).moc = { old with order := some o } ∧ t.startQueue = []) ∧
      (old.motion.drive ≠ some dir → old.motion = .closing ∨ old.motion = .opening →
        ∃ t, exec (.groupMove x 15 m a) s = .next t ∧ runs t ∧ posted t .moveEnded 5 ∧
          t.startQueue = [] ∧ (t.ch c).moc = { old with
            order := some o, motion := .brakingOrder, stall := none, brakeRunning := true
            brakeExpiry := s.clock.now + 10000 * (s.ch c).cal.brake }) ∧
      (old.motion = .waiting →
        ∃ t, exec (.groupMove x 15 m a) s = .next t ∧ runs t ∧ posted t .moveEnded 5 ∧
          (t.ch c).hold = .none ∧ t.startQueue = [c] ∧
          (t.ch c).moc = { old with order := some o, motion := .queued, wait := none })) ∧
    (old.order = none → s.inReversal c = true → dir = .opening →
      ∃ t, exec (.groupMove x 15 m a) s = .next t ∧ runs t ∧ posted t .reversalEnd 17 ∧ t.startQueue = [] ∧
        (t.ch c).moc = { old with
          order := some o, revTarget := none
          motion := if old.motion = .reversing then .opening else .brakingOrder })) ∧
  ∀ (s : State) (x : Client) (m : BitVec 4) (a : Word) (mask : BitVec 8) (dir : Dir) (org : Origin)
    (c : Chan), s.agenda = [] → s.ready = true → s.calLoaded = true →
    s.erasing = false → groupModifier m = some (dir, org) → panelMask a = some mask →
    s.hasRight x .group = true → inMask mask c = true → (s.ch c).cal.populated = true →
    ((∀ g, s.group g ≠ none) →
      exec (.groupMove x 15 m a) s = .next (setReply x .busy 0 (received x s))) ∧
    ∀ (r : Result) (g : Fin 4), s.group g = none →
      (∀ d, d < c → inMask mask d = true → (s.ch d).cal.populated = false) →
      s.memberRefusal x dir org c = some r →
      (∀ d, inMask mask d = true → (s.ch d).cal.populated = true → s.memberRefusal x dir org d ≠ none) →
      exec (.groupMove x 15 m a) s = .next (setReply x r 0 (received x s))

/-- R142: GROUP CANCEL of its own entry ends the orders of the group's members: a PENDING one, QUEUED,
CANCELLED, a RUNNING one HALTED, as they stood at the request. That the outcome goes by the state at the request, so
that no slot released by the request is granted to a PENDING member of it before its turn, is the model's choice (log
entry 14). Those channels are IDLE without an order and out of the start queue; a channel that holds no order of the
group is as it was (the queue holds members only, and no channel is WAITING). R140, R141: when that leaves every member
with a final outcome, the entry is freed and GROUP_DONE is posted with the mask of the members whose outcome is not
REACHED. -/
def Obligations.GroupCancelEndsTheMembers : Prop :=
  ∀ (s : State) (x : Client) (a : Word) (g : Fin 4) (e : GroupEntry), MotionTable s → s.ready = true →
    (∀ c, (s.ch c).moc.motion ≠ .waiting) → (∀ c ∈ s.startQueue, s.holdsGroupOrder g c = true) →
    s.hasRight x .group = true → groupIndex (a.extractLsb' 8 8).toNat = some g → s.group g = some e →
    e.serial = (a.extractLsb' 0 8).toNat → e.owner = x →
    ∃ t, exec (.groupCancel x 15 0 a) s = .next t ∧
      Replies x .done (natWord (allChans.filter (s.holdsGroupOrder g)).length) t ∧ t.startQueue = [] ∧
      (∀ c, s.holdsGroupOrder g c = true →
        (t.ch c).moc.motion = .idle ∧ (t.ch c).moc.order = none ∧ (t.ch c).moc.slot = false ∧
        ∀ y, Hears s y .moveEnded c →
          Holds t y .moveEnded (some c) (signedWord (s.ch c).hif.pos)
            (if (s.ch c).moc.motion = .queued then 15 else 4)) ∧
      (∀ c, s.holdsGroupOrder g c = false → t.ch c = s.ch c) ∧
      (∀ g', g' ≠ g → t.group g' = s.group g') ∧
      ((∀ c : Chan, s.holdsGroupOrder g c = true ↔ e.members[c] = some .live) →
        (∀ c : Chan, e.members[c] ≠ some .toJudge) → (∃ c : Chan, s.holdsGroupOrder g c = true) →
        t.group g = none ∧
        ∀ y, (s.link y).mask.getLsbD 12 = true → Holds t y .groupDone none
          (maskWord (maskWhere fun c : Chan => decide (e.members[c] ≠ none ∧ e.members[c] ≠ some .reached)))
          (bytesWord g.val e.serial))

/-- R160, R161, R106: LEARN OPEN END on an IDLE channel at CLOSED_KNOWN or above, and LEARN REFERENCE at
ENDS_KNOWN or above below its soft stop, with every slot taken: ACCEPTED, the learning record names the
run and the client, and the channel is QUEUED with the run's opening order, an AUTO LOCAL order of mover
LEARN. R162, R167: the stall of a LEARN OPEN END order at 256 to 4064 sets Lt and ends OPEN_END and LEARN_DONE,
elsewhere it ends OBSTRUCTED and LEARN_FAILED, RANGE. R165, R167: the closed end of a closing half, with a
correction of 24 or less, ends LEARN_FAILED with the mark, LEARN_DONE with the profile of R166, or LEARN_FAILED,
COVERAGE; with a correction above 24 (R157) it ends LEARN_FAILED with the mark or, without one, SHIFT, and the profile
and the level stand. R167: the other ends of a run fail it with the mark or, without one, INTERRUPTED with the outcome
(a stall of the opening half, OPEN_END or OBSTRUCTED; a stall of the closing half outside SEAL, PINCH; HALT; STOP CLAIM;
LOCKOUT SET of another client; a MOVE that replaces the order, the channel being in a row of the table of section 5.1; the
wait deadline; PANEL RESTART), FAULT (here the third
no-step start, R90) or SUPPLY (the entry into CRANK, R25); the record and, but for a RESTART, the level stand. R166: the
profile of a run, band by band. -/
def Obligations.LearnQueuesItsFirstOrder : Prop :=
  (∀ (s : State) (x : Client) (p : BitVec 4) (c : Chan), s.calm → s.ready = true → s.calLoaded = true →
    s.erasing = false → chanOf p = some c → (s.ch c).cal.populated = true → s.mayAct x c = true →
    s.hasRight x .calibrate = true → s.lockedOut x c = false → (s.ch c).auth.claims = 0 →
    s.sup.state = .normal → (s.ch c).moc.motion = .idle → (s.ch c).moc.order = none →
    s.glob.ns ≤ s.slotCount →
    ((s.ch c).level ≠ .noneKnown →
      ∃ t, exec (.learnOpenEnd x p 0 0) s = .next t ∧ Replies x .accepted 0xFFFF t ∧
        OnlyChannel c s t ∧ (t.ch c).learning = ⟨some .openEnd, some x, none⟩ ∧
        (t.ch c).moc.motion = .queued ∧ t.startQueue = [c] ∧
        (t.ch c).moc.order = some ⟨.opening, .auto, .toEnd, .localReq, .learn, x, .openEnd, 0, none, s.clock.ms⟩) ∧
    (∀ lt : Nat, (s.ch c).level = .endsKnown ∨ (s.ch c).level = .learned →
      (s.ch c).cal.travel = some lt → (s.ch c).hif.pos < ((lt - (s.ch c).cal.ms : Nat) : Int) →
      ∃ t, exec (.learnReference x p 0) s = .next t ∧
        Replies x .accepted (natWord (lt - (s.ch c).cal.ms)) t ∧
        OnlyChannel c s t ∧ (t.ch c).learning = ⟨some .reference, some x, none⟩ ∧
        (t.ch c).moc.motion = .queued ∧ t.startQueue = [c] ∧
        (t.ch c).moc.order = some ⟨.opening, .auto, .pos (lt - (s.ch c).cal.ms), .localReq, .learn, x,
          .refOpening, 0, none, s.clock.ms⟩)) ∧
  (∀ (s : State) (c : Chan) (o : Order) (x : Client) (due : Nat), s.calm →
    (s.ch c).moc.stall = some due → due ≤ s.clock.now → 0 < (s.ch c).moc.steps →
    (s.ch c).moc.order = some o → o.mover = .learn →
    let isOver := fun (t : State) => OnlyChannel c s t ∧ SameDevice s t ∧ (t.ch c).moc.motion = .idle ∧
      (t.ch c).moc.order = none ∧ (t.ch c).moc.slot = false ∧ (t.ch c).learning = ⟨none, none, none⟩
    let posted := fun (t : State) (k : EventKind) (pos : Int) (d : Word) =>
      ∀ y, Hears s y k c → Holds t y k (some c) (signedWord pos) d
    ((s.ch c).moc.motion = .opening → o.phase = .openEnd →
      (s.ch c).learning = ⟨some .openEnd, some x, none⟩ →
      (256 ≤ (s.ch c).hif.pos → (s.ch c).hif.pos ≤ 4064 →
        ∃ t, exec (.stall c) s = .next t ∧ isOver t ∧ (t.ch c).level = .endsKnown ∧
          (t.ch c).cal = { (s.ch c).cal with
            travel := some (s.ch c).hif.pos.toNat, profile := none, adaptations := 0
            unsaved := true, changed := true } ∧
          posted t .endReached (s.ch c).hif.pos 1 ∧ posted t .moveEnded (s.ch c).hif.pos 2 ∧
          posted t .learnDone (s.ch c).hif.pos 0) ∧
      ((s.ch c).hif.pos < 256 ∨ 4064 < (s.ch c).hif.pos →
        ∃ t, exec (.stall c) s = .next t ∧ isOver t ∧ (t.ch c).level = (s.ch c).level ∧
          (t.ch c).cal = (s.ch c).cal ∧ posted t .moveEnded (s.ch c).hif.pos 9 ∧
          posted t .learnFailed (s.ch c).hif.pos 0)) ∧
    (∀ (lt : Nat) (mark : Option LearnFail), (s.ch c).moc.motion = .closing → o.phase = .refClosing →
      (s.ch c).learning = ⟨some .reference, some x, mark⟩ → (s.ch c).level ≠ .noneKnown →
      zoneKindAt (s.ch c).cal.zones (s.ch c).hif.pos = some .seal → (s.ch c).hif.pos.natAbs ≤ 24 →
      (s.ch c).cal.travel = some lt →
      ∃ t, exec (.stall c) s = .next t ∧ isOver t ∧ (t.ch c).hif.pos = 0 ∧ posted t .moveEnded 0 1 ∧
        (∀ r, mark = some r → r ≠ .interrupted →
          (t.ch c).cal = (s.ch c).cal ∧ (t.ch c).level = (s.ch c).level ∧
          posted t .learnFailed 0 (natWord (4096 * learnFailCode r + 256))) ∧
        (∀ bands, mark = none → coveredProfile lt (s.ch c).ctx = some bands →
          (t.ch c).cal = { (s.ch c).cal with
            profile := some bands, adaptations := 0, unsaved := true, changed := true } ∧
          (t.ch c).level = .learned ∧ posted t .learnDone 0 0x0100) ∧
        (mark = none → coveredProfile lt (s.ch c).ctx = none →
          (t.ch c).cal = (s.ch c).cal ∧ (t.ch c).level = (s.ch c).level ∧
          posted t .learnFailed 0 0x1100)) ∧
    (∀ mark : Option LearnFail, (s.ch c).moc.motion = .closing → o.phase = .refClosing →
      (s.ch c).learning = ⟨some .reference, some x, mark⟩ →
      (s.ch c).level = .endsKnown ∨ (s.ch c).level = .learned →
      zoneKindAt (s.ch c).cal.zones (s.ch c).hif.pos = some .seal → 24 < (s.ch c).hif.pos.natAbs →
      ∃ t, exec (.stall c) s = .next t ∧ isOver t ∧ (t.ch c).hif.pos = 0 ∧ (t.ch c).cal = (s.ch c).cal ∧
        (t.ch c).level = (s.ch c).level ∧ posted t .positionCorrected 0 (signedWord (s.ch c).hif.pos) ∧
        posted t .moveEnded 0 1 ∧ (mark = none → posted t .learnFailed 0 0x2100) ∧
        (mark = some .supply → posted t .learnFailed 0 0x3100))) ∧
  (∀ (s : State) (c : Chan) (o : Order) (kind : RunKind) (x : Client) (mark : Option LearnFail),
    s.agenda = [] → (∀ d ∈ s.startQueue, d = c) → (∀ d, d ≠ c → (s.ch d).moc.motion ≠ .waiting) →
    s.ready = true → (s.ch c).cal.populated = true → (s.ch c).moc.motion ≠ .fault → s.inReversal c = false →
    (s.ch c).moc.order = some o → o.mover = .learn → (s.ch c).learning = ⟨some kind, some x, mark⟩ →
    let detail := fun (reason : LearnFail) (outcome : Nat) => natWord
      ((match mark.getD reason with
        | .range => 0x0000 | .coverage => 0x1000 | .shift => 0x2000 | .supply => 0x3000
        | .interrupted => 0x4000 + outcome | .fault => 0x5000) +
        match kind with | .openEnd => 0 | .reference => 0x0100)
    let reports := fun (t : State) (outcome : Nat) (reason : LearnFail) =>
      (t.ch c).learning = ⟨none, none, none⟩ ∧ (t.ch c).cal = (s.ch c).cal ∧ ∃ w,
        (∀ y, Hears s y .moveEnded c → outcome ≠ 8 → Holds t y .moveEnded (some c) w (natWord outcome)) ∧
        (∀ y, Hears s y .learnFailed c → Holds t y .learnFailed (some c) w (detail reason outcome)) ∧
        (outcome ≠ 14 → (t.ch c).level = (s.ch c).level ∧ w = signedWord (s.ch c).hif.pos)
    let stops := fun (t : State) (outcome : Nat) (reason : LearnFail) =>
      reports t outcome reason ∧ OnlyChannel c s t ∧ (t.ch c).moc.order = none ∧ (t.ch c).moc.slot = false ∧
      (t.ch c).moc.motion = (if reason = .fault then .fault else .idle)
    let stalls := (∃ due, (s.ch c).moc.stall = some due ∧ due ≤ s.clock.now)
    (stalls → 0 < (s.ch c).moc.steps → (s.ch c).moc.motion = .opening → o.phase = .refOpening →
      let near := ∃ lt : Nat, (s.ch c).cal.travel = some lt ∧ (lt : Int) - 24 ≤ (s.ch c).hif.pos ∧
        ((s.ch c).level = .endsKnown ∨ (s.ch c).level = .learned)
      (near → ∃ t, exec (.stall c) s = .next t ∧ stops t 2 .interrupted) ∧
      (¬ near → ∃ t, exec (.stall c) s = .next t ∧ stops t 9 .interrupted)) ∧
    (stalls → 0 < (s.ch c).moc.steps → (s.ch c).moc.motion = .closing → (s.ch c).level ≠ .noneKnown →
      zoneKindAt (s.ch c).cal.zones (s.ch c).hif.pos ≠ some .seal →
      ∃ t, exec (.stall c) s = .next t ∧ reports t 8 .interrupted ∧ OnlyChannel c s t ∧
        (t.ch c).moc.motion = .brakingPinch) ∧
    (stalls → (s.ch c).moc.steps = 0 → (s.ch c).moc.noStep = 2 →
      ∃ t, exec (.stall c) s = .next t ∧ stops t 13 .fault) ∧
    (∀ deadline, (s.ch c).moc.motion = .waiting → (s.ch c).moc.wait = some deadline → deadline ≤ s.clock.now →
      ((s.ch c).hold = .leader →
        ∃ t, exec (.waitDeadlineExpiry c) s = .next t ∧ stops t 11 .interrupted) ∧
      ((s.ch c).hold = .follower →
        ∃ t, exec (.waitDeadlineExpiry c) s = .next t ∧ stops t 12 .interrupted)) ∧
    (∀ r, r < 600 → 3 ≤ s.sup.settling → s.sup.state ≠ .crank →
      (∀ d, d ≠ c → s.atRest d = true ∧ (s.ch d).moc.order = none) →
      ∃ t, exec (.supplySample r) s = .next t ∧ stops t 10 .supply) ∧
    ∀ (y : Client) (p : BitVec 4), chanOf p = some c → s.mayAct y c = true → s.lockedOut y c = false →
      (s.hasRight y .move = true → ∃ t, exec (.halt y p 0 0) s = .next t ∧ stops t 4 .interrupted) ∧
      (s.hasRight y .claim = true → ∃ t, exec (.stopClaim y p 0 0) s = .next t ∧ stops t 6 .interrupted) ∧
      (s.hasRight y .move = true → ∃ t, exec (.panelRestart y p 0 0) s = .next t ∧ stops t 14 .interrupted) ∧
      (∀ a : Word, panelMask a = some (1 <<< c.val) → s.hasRight y .lockout = true → o.client ≠ y →
        ∃ t, exec (.lockoutSet y 15 0 a) s = .next t ∧ stops t 7 .interrupted) ∧
      ∀ (m : BitVec 4) (a : Word) (d : Dir) (md : Mode) (org : Origin) (tgt : Target),
        s.hasRight y .move = true → moveModifier m = some (d, md, org) → targetOf a = some tgt →
        s.refusal y c d md org = none → (s.ch c).cal.companion = none → s.leadersOf c = [] →
        s.spacingElapsed = false → (s.ch c).inTable (c ∈ s.startQueue) →
        ∃ t, exec (.move y p m a) s = .next t ∧ reports t 5 .interrupted ∧ OnlyChannel c s t) ∧
  ∀ (lt : Nat) (run : LoadContext), 256 ≤ lt → lt ≤ 4064 →
    (∀ bands, coveredProfile lt run = some bands → bands.length = (lt + 31) / 32 ∧
      ∀ (b : Fin 127) (v : Nat), bands[b.val]? = some v →
        (8 ≤ run.bands[b].count → v = max 200 (min (run.bands[b].sum / run.bands[b].count) 60000)) ∧
        (run.bands[b].count < 8 → (lt + 31) / 32 ≤ b.val + 2 ∧ bands[b.val - 1]? = some v)) ∧
    (coveredProfile lt run = none ↔ ∃ b : Fin 127, b.val + 2 < (lt + 31) / 32 ∧ run.bands[b].count < 8)

/-- R159: FORGET on an IDLE channel with an Lt: Lt and the profile become absent, the adaptation count 0,
the record is unsaved, a level of ENDS_KNOWN or LEARNED falls to CLOSED_KNOWN; the data is 1. -/
def Obligations.ForgetDropsTheTravel : Prop :=
  ∀ (s : State) (x : Client) (p : BitVec 4) (c : Chan) (lt : Nat), s.agenda = [] → s.ready = true →
    s.calLoaded = true → s.erasing = false → chanOf p = some c → (s.ch c).cal.populated = true →
    s.mayAct x c = true → s.hasRight x .calibrate = true → (s.ch c).moc.motion = .idle →
    (s.ch c).cal.travel = some lt →
    ∃ t, exec (.forget x p 0) s = .next t ∧ Replies x .done 1 t ∧ OnlyChannel c s t ∧ SameDevice s t ∧
      (t.ch c).cal = { (s.ch c).cal with
        travel := none, profile := none, adaptations := 0, unsaved := true, changed := true } ∧
      ((s.ch c).level = .endsKnown ∨ (s.ch c).level = .learned → (t.ch c).level = .closedKnown) ∧
      ((s.ch c).level = .noneKnown ∨ (s.ch c).level = .closedKnown → (t.ch c).level = (s.ch c).level) ∧
      (t.ch c).hif = (s.ch c).hif ∧ (t.ch c).moc = (s.ch c).moc

/-! ## Calibration -/

/-- R59, R61, R62, R74, and the ranges of section 4.5: SET PARAMETER of a channel by a client with CALIBRATE, with
calibration loaded. A read-only selector, or one other than 0 on an unpopulated channel, is BAD_ARGUMENT. Under the
lock it is CAL_LOCKED, on a channel that is neither IDLE nor FAULT BUSY. Else a value within its range is DONE with the
value, and the record is as before but for that field, marked when the value differs; a value outside is
BAD_ARGUMENT. The companion must be 15 or another populated channel without a companion, and no other channel may
name the channel written. A changed populated flag also clears what R62 and R15 say (`Channel.repopulated`; what stands
beside that is log entry 31). For selectors 0 and 11 to 13 no channel waits. Nothing else changes. -/
def Obligations.SetParameterWritesOneField : Prop :=
  ∀ (s : State) (x : Client) (p m : BitVec 4) (a : Word) (c : Chan), s.agenda = [] → s.ready = true →
    s.calLoaded = true → s.erasing = false → chanOf p = some c → s.hasRight x .calibrate = true →
    let answers := fun (r : Result) => exec (.setParameter x p m a) s = .next (setReply x r 0 (received x s))
    let r := (s.ch c).cal
    let v := a.toNat
    let linked := r.companion ≠ none ∨ ∃ q : Chan, q ≠ c ∧ (s.ch q).cal.companion = some c
    let writes := fun (n : Nat) (ok : Prop) (new : CalRecord) => m.toNat = n →
      (ok → exec (.setParameter x p m a) s = .next (setReply x .done a (updCal c (fun _ =>
        if new = r then r else { new with unsaved := true, changed := true }) (received x s)))) ∧
      (¬ ok → answers .badArgument)
    (14 ≤ m.toNat ∨ (r.populated = false ∧ m.toNat ≠ 0) → answers .badArgument) ∧
    (m.toNat < 14 → r.populated = true ∨ m.toNat = 0 →
      (s.glob.locked = true → answers .calLocked) ∧
      (s.glob.locked = false → s.atRest c = false → answers .busy) ∧
      (s.glob.locked = false → s.atRest c = true →
        writes 1 (4 ≤ v ∧ v ≤ 64) { r with nr := v } ∧
        writes 2 (500 ≤ v ∧ v ≤ 65000) { r with ru := v } ∧
        writes 3 (200 ≤ v ∧ v ≤ 30000) { r with pn := v } ∧
        writes 4 (16 ≤ v ∧ v ≤ 4064) { r with rd := v } ∧
        writes 5 (v ≤ 4064) { r with floor := v } ∧
        writes 6 (v ≤ 64) { r with ms := v } ∧
        writes 7 (16 ≤ v ∧ v ≤ 1024) { r with jolt := v } ∧
        writes 8 (v ≤ 32) { r with bn := v } ∧
        writes 9 (1 ≤ v ∧ v ≤ 16) { r with brake := v } ∧
        writes 10 (v ≤ 1) { r with polarity := if v = 1 then .activeLow else .activeHigh } ∧
        ((∀ d, (s.ch d).moc.motion ≠ .waiting) →
          writes 11 (v = 15 ∨ ∃ d : Chan, d.val = v ∧ d ≠ c ∧ (s.ch d).cal.populated = true ∧
              (s.ch d).cal.companion = none ∧ ∀ q : Chan, q ≠ c → (s.ch q).cal.companion ≠ some c)
            { r with companion := if h : v < 8 then some ⟨v, h⟩ else none } ∧
          writes 12 (v ≤ 4064) { r with gate := v } ∧
          writes 13 (v ≤ 4064) { r with requirement := v } ∧
          (m.toNat = 0 →
            (1 < v ∨ (v = 0 ∧ linked) → answers .badArgument) ∧
            ((v = 1 ∧ r.populated = true) ∨ (v = 0 ∧ r.populated = false ∧ ¬ linked) →
              exec (.setParameter x p m a) s = .next (setReply x .done a (received x s))) ∧
            ((v = 1 ∧ r.populated = false) ∨ (v = 0 ∧ r.populated = true ∧ ¬ linked) →
              exec (.setParameter x p m a) s = .next (setReply x .done a
                (updChan c (Channel.repopulated (decide (v = 1))) (received x s))))))))

/-- R59, R63, R176, R74: SET PARAMETER of the global record by a client with CALIBRATE, with calibration unlocked and
loaded. A client's rights take the panel mask and the rights set; client 3 cannot lose CALIBRATE. Ns (1 to 4) is BUSY
unless every channel is IDLE or FAULT. Ts (2 to 20, in 10 ms) is taken in any motion state, and the spacing since the
last drive-on is measured against it (log entry 30); the start queue is empty. The global record is marked when the
value differs. The populated mask changes the flag of each channel where it differs, and marks that channel's record
and not the global one; it is BUSY where such a channel is not at rest, BAD_ARGUMENT where R62 refuses one; a changed
flag also clears what R62 and R15 say (`Channel.repopulated`; that the no-step count, the latched flag, the override
state and the load context stand beside it is the model's choice, log entry 31). No channel waits. A value outside its
range, or a selector of 7 or above, is BAD_ARGUMENT. -/
def Obligations.RightsWriteTakesEffect : Prop :=
  ∀ (s : State) (x y : Client) (a : Word) (m : BitVec 4), s.agenda = [] → s.ready = true →
    s.calLoaded = true → s.erasing = false → s.glob.locked = false → s.hasRight x .calibrate = true →
    let answers := fun (r : Result) => exec (.setParameter x 15 m a) s = .next (setReply x r 0 (received x s))
    let global := fun (new : GlobalRecord) =>
      if new = s.glob then s.glob else { new with unsaved := true, changed := true }
    let linked := fun (c : Chan) =>
      (s.ch c).cal.companion ≠ none ∨ ∃ q : Chan, q ≠ c ∧ (s.ch q).cal.companion = some c
    (m.toNat = 3 + y.val →
      (a.extractLsb' 5 3 ≠ 0 ∨ (y = 3 ∧ a.getLsbD 4 = false) → answers .badArgument) ∧
      (a.extractLsb' 5 3 = 0 → y ≠ 3 ∨ a.getLsbD 4 = true →
        let row : Rights := ⟨a.extractLsb' 8 8, a.extractLsb' 0 5⟩
        exec (.setParameter x 15 m a) s = .next (setReply x .done a
          { received x s with glob := global { s.glob with rights := s.glob.rights.set y row } }))) ∧
    (m.toNat = 0 →
      ((∃ c, s.atRest c = false) → answers .busy) ∧
      ((∀ c, s.atRest c = true) → a.toNat = 0 ∨ 4 < a.toNat → answers .badArgument) ∧
      ((∀ c, s.atRest c = true) → 1 ≤ a.toNat → a.toNat ≤ 4 →
        exec (.setParameter x 15 m a) s = .next (setReply x .done a
          { received x s with glob := global { s.glob with ns := a.toNat } }))) ∧
    (m.toNat = 1 →
      (a.toNat < 2 ∨ 20 < a.toNat → answers .badArgument) ∧
      (2 ≤ a.toNat → a.toNat ≤ 20 → s.startQueue = [] →
        exec (.setParameter x 15 m a) s = .next (setReply x .done a
          { received x s with
            glob := global { s.glob with ts := a.toNat }
            spacing := match s.spacing with
              | .unarmed => .unarmed
              | .armed since _ => .armed since (since + 10000 * a.toNat ≤ s.clock.now) }))) ∧
    (m.toNat = 2 →
      ((∀ c, s.atRest c = true) → a.extractLsb' 8 8 ≠ 0 → answers .badArgument) ∧
      (∀ mask, panelMask a = some mask →
        let changed := fun (c : Chan) => (s.ch c).cal.populated ≠ inMask mask c
        ((∃ c, changed c ∧ s.atRest c = false) → answers .busy) ∧
        ((∀ c, changed c → s.atRest c = true) →
          ((∃ c, changed c ∧ inMask mask c = false ∧ linked c) → answers .badArgument) ∧
          ((∀ d, (s.ch d).moc.motion ≠ .waiting) → (∀ c, changed c → inMask mask c = false → ¬ linked c) →
            ∃ t, exec (.setParameter x 15 m a) s = .next t ∧ Replies x .done a t ∧
              t = { s with chans := t.chans, links := t.links } ∧
              ∀ c, (changed c → t.ch c = (s.ch c).repopulated (inMask mask c)) ∧
                (¬ changed c → t.ch c = s.ch c))))) ∧
    (7 ≤ m.toNat → answers .badArgument)

/-- R66: the ZONE requests other than BEGIN, from a client that passes the checks of R64: naming another
channel than the bound one, or with no owner set, they are BAD_ARGUMENT, but for ABANDON with no owner
set, which is DONE and changes nothing. -/
def Obligations.ZoneRequestsNameTheBoundChannel : Prop :=
  ∀ (s : State) (x : Client) (p m : BitVec 4) (a : Word) (c : Chan), s.agenda = [] → s.ready = true →
    chanOf p = some c → s.zoneRefusal x c false = none → m.toNat < 4 →
    ((s.staging.owner = some x ∧ s.staging.bound ≠ c) ∨ s.staging.owner = none →
      exec (.zonePutStart x p 0 a) s = .next (setReply x .badArgument 0 (received x s)) ∧
      exec (.zonePutField x p m a) s = .next (setReply x .badArgument 0 (received x s)) ∧
      exec (.zoneCommit x p 0 0) s = .next (setReply x .badArgument 0 (received x s))) ∧
    (s.staging.owner = some x → s.staging.bound ≠ c →
      exec (.zoneAbandon x p 0 0) s = .next (setReply x .badArgument 0 (received x s))) ∧
    (s.staging.owner = none →
      exec (.zoneAbandon x p 0 0) s = .next (setReply x .done 0 (received x s)))

/-- R65, R67, R68, R69, R70: what the ZONE requests do for the owner on the bound channel: BEGIN takes the
empty buffer, PUT START appends a record copied from the last (GUARD 80 600 400 in an empty buffer), PUT
FIELD sets a field of the last record, COMMIT of a valid list replaces the channel's zones and marks the
record, COMMIT of an invalid one is BAD_ARGUMENT, ABANDON empties the buffer; a seventh record, a start above 4063, a
kind of 3 or above and a PUT FIELD in an empty buffer are BAD_ARGUMENT. R69: which lists are valid. R64: the checks
ahead of these, in their order, the buffer standing at each refusal: BAD_ARGUMENT for a channel of 8 to 15, an
unpopulated one or a malformed request (a modifier of 4 or above in a PUT FIELD is one: the model's choice, log entry
15); NOT_PERMITTED; CAL_LOCKED; NOT_READY; BUSY while another client owns the buffer. R64, R70: a client without
CALIBRATE is refused NOT_PERMITTED by each of the five. R116's closing sentences say otherwise of
ZONE ABANDON: that R64 and R70 prevail is the model's choice (log entry 32). A start above 4063 and a kind of 3 or
above are not malformed in the sense of R64's check 1, so they too meet the later checks first: the model's choice (log
entry 15). -/
def Obligations.ZoneRequestsBuildAndCommit : Prop :=
  (∀ (s : State) (x : Client) (p : BitVec 4) (a : Word) (c : Chan), s.agenda = [] → s.ready = true →
    chanOf p = some c → s.zoneRefusal x c false = none →
    exec (.zoneBegin x p 0 0) s = .next (setReply x .done 0
      { received x s with staging := ⟨some x, c, []⟩ }) ∧
    (s.staging.owner = some x → s.staging.bound = c →
      let bad := setReply x .badArgument 0 (received x s)
      (a.toNat ≤ 4063 → s.staging.records.length < 6 →
        exec (.zonePutStart x p 0 a) s = .next (setReply x .done (natWord (s.staging.records.length + 1))
          { received x s with staging := { s.staging with records := s.staging.records ++
            [match s.staging.records.getLast? with
             | some z => ⟨a.toNat, z.kind, z.t, z.e, z.h⟩
             | none => ⟨a.toNat, .guard, 80, 600, 400⟩] } })) ∧
      (4063 < a.toNat ∨ 6 ≤ s.staging.records.length → exec (.zonePutStart x p 0 a) s = .next bad) ∧
      (∀ init z, s.staging.records = init ++ [z] →
        let sets := fun (n : BitVec 4) (v : Word) (z' : Zone) =>
          exec (.zonePutField x p n v) s = .next (setReply x .done v
            { received x s with staging := { s.staging with records := init ++ [z'] } })
        sets 0 0 { z with kind := .seal } ∧ sets 0 1 { z with kind := .guard } ∧
        sets 0 2 { z with kind := .watch } ∧ sets 1 a { z with t := a.toNat } ∧
        sets 2 a { z with e := a.toNat } ∧ sets 3 a { z with h := a.toNat } ∧
        (2 < a.toNat → exec (.zonePutField x p 0 a) s = .next bad)) ∧
      (s.staging.records = [] → ∀ m, exec (.zonePutField x p m a) s = .next bad) ∧
      (zonesValid s.staging.records = true →
        exec (.zoneCommit x p 0 0) s = .next (setReply x .done (natWord s.staging.records.length)
          { updCal c (fun r => { r with zones := s.staging.records, unsaved := true, changed := true })
              (received x s) with staging := emptyStaging })) ∧
      (zonesValid s.staging.records = false → exec (.zoneCommit x p 0 0) s = .next bad) ∧
      exec (.zoneAbandon x p 0 0) s = .next (setReply x .done 0
        { received x s with staging := emptyStaging }))) ∧
  (∀ (zones : List Zone), zonesValid zones = true ↔
    1 ≤ zones.length ∧ zones.length ≤ 6 ∧ (∀ z, zones.head? = some z → z.start = 0) ∧
    zones.Pairwise (fun a b => a.start < b.start) ∧
    ∀ z ∈ zones, 16 ≤ z.t ∧ z.t ≤ 2048 ∧ 64 ≤ z.e ∧ z.e ≤ 65535 ∧ 64 ≤ z.h ∧ z.h ≤ 4095) ∧
  ∀ (s : State) (x : Client) (p m : BitVec 4) (a : Word), s.agenda = [] → s.ready = true →
    let refused := fun (r : Result) => setReply x r 0 (received x s)
    let each := fun (r : Result) =>
      exec (.zoneBegin x p 0 0) s = .next (refused r) ∧ exec (.zonePutStart x p 0 a) s = .next (refused r) ∧
      (m.toNat < 4 → exec (.zonePutField x p m a) s = .next (refused r)) ∧
      exec (.zoneCommit x p 0 0) s = .next (refused r) ∧ exec (.zoneAbandon x p 0 0) s = .next (refused r)
    (chanOf p = none → each .badArgument) ∧
    (m ≠ 0 → exec (.zonePutStart x p m a) s = .next (refused .badArgument)) ∧
    (3 < m.toNat → exec (.zonePutField x p m a) s = .next (refused .badArgument)) ∧
    (m ≠ 0 ∨ a ≠ 0 →
      exec (.zoneBegin x p m a) s = .next (refused .badArgument) ∧
      exec (.zoneCommit x p m a) s = .next (refused .badArgument) ∧
      exec (.zoneAbandon x p m a) s = .next (refused .badArgument)) ∧
    ∀ c, chanOf p = some c →
      ((s.ch c).cal.populated = false → each .badArgument) ∧
      ((s.ch c).cal.populated = true →
        (s.hasRight x .calibrate = false → each .notPermitted) ∧
        (s.hasRight x .calibrate = true →
          (s.glob.locked = true → each .calLocked) ∧
          (s.glob.locked = false →
            (s.calLoaded = false ∨ s.erasing = true → each .notReady) ∧
            (s.calLoaded = true → s.erasing = false →
              (∀ y, s.staging.owner = some y → y ≠ x → each .busy) ∧
              (s.staging.owner = none ∨ s.staging.owner = some x → s.zoneRefusal x c false = none)))))

/-- R72, R73, R75: adaptation: a band whose count equals its width moves an eighth of the way to the
average of the run, within 200..60000, when the average is within a quarter of it; any other band stands. The
new profile holds that value in each band; when it differs the adaptation count rises by one and the record is
marked, else the record stands. R56: the width of a band. R72: the STALL that ends an AUTO close at a closed end
makes this change when the run qualifies, and leaves the record as it was when one of the conditions fails. -/
def Obligations.AdaptationMovesABand : Prop :=
  (∀ (r width : Nat) (b : BandSum), 0 < width →
    (b.count ≠ width → adaptBand r width b = r) ∧
    (b.count = width → r / 4 < ((b.sum / b.count : Nat) - (r : Int)).natAbs → adaptBand r width b = r) ∧
    (b.count = width → ((b.sum / b.count : Nat) - (r : Int)).natAbs ≤ r / 4 →
      (adaptBand r width b : Int) =
        max 200 (min (r + ((b.sum / b.count : Nat) - (r : Int)).tdiv 8) 60000))) ∧
  (∀ (r : CalRecord) (run : LoadContext),
    (adaptRecord r run = r) ∨
    ((adaptRecord r run).adaptations = min 65535 (r.adaptations + 1) ∧
      (adaptRecord r run).unsaved = true ∧ (adaptRecord r run).profile ≠ r.profile ∧
      (adaptRecord r run).zones = r.zones ∧ (adaptRecord r run).travel = r.travel)) ∧
  (∀ (lt b : Nat), bandWidth lt b =
    if b + 1 < (lt + 31) / 32 then 32 else lt - 32 * ((lt + 31) / 32 - 1)) ∧
  (∀ (r : CalRecord) (run : LoadContext) (lt : Nat) (bands : List Nat), r.travel = some lt →
    r.profile = some bands → bands.length ≤ 127 →
    ∃ new : List Nat, new.length = bands.length ∧
      (∀ (b : Fin 127) (v : Nat), bands[b.val]? = some v →
        new[b.val]? = some (adaptBand v (bandWidth lt b.val) run.bands[b])) ∧
      adaptRecord r run = if new = bands then r else { r with
        profile := some new, adaptations := min 65535 (r.adaptations + 1)
        unsaved := true, changed := true }) ∧
  ∀ (s : State) (c : Chan) (o : Order) (due : Nat), s.calm → (s.ch c).moc.stall = some due →
    due ≤ s.clock.now → (s.ch c).moc.motion = .closing → (s.ch c).moc.order = some o →
    o.mover = .client → (s.ch c).level ≠ .noneKnown → 0 < (s.ch c).moc.steps →
    zoneKindAt (s.ch c).cal.zones (s.ch c).hif.pos = some .seal → (s.ch c).hif.pos.natAbs ≤ 24 →
    ∃ t, exec (.stall c) s = .next t ∧ (t.ch c).cal =
      if o.mode = .auto ∧ o.k = 0 ∧ (s.ch c).cal.profile ≠ none ∧ (s.ch c).ctx.qualified = true ∧
          (s.ch c).ctx.gapCount ≤ 4 ∧ (s.ch c).ctx.joltCount ≤ 4 then
        adaptRecord (s.ch c).cal (s.ch c).ctx
      else (s.ch c).cal

/-! ## Calibration memory -/

/-- R188, R190: STORE of a channel takes the snapshot, clears its mark and is busy for 35 ms; STORE of the
global record for 10 ms; CAL LOCK sets the lock, discards the staging buffer and writes the global record
with the lock for 10 ms, data 1; under the lock it is DONE with data 0 and writes nothing; while an
operation runs each of them is BUSY. -/
def Obligations.StoreAndLockBegin : Prop :=
  ∀ (s : State) (x : Client) (p : BitVec 4) (c : Chan), s.agenda = [] → s.ready = true →
    s.hasRight x .calibrate = true →
    (s.nvc.busy = none →
      (chanOf p = some c →
        exec (.store x p 0 0) s = .next (setReply x .done 0
          (updCal c (fun r => { r with changed := false })
            { received x s with
              nvc := { s.nvc with
                busy := some ⟨.storeChannel c { (s.ch c).cal with unsaved := false, changed := false },
                  s.clock.now, s.clock.now + 35000⟩ } }))) ∧
      exec (.store x 15 0 0) s = .next (setReply x .done 0
        { received x s with
          glob := { s.glob with changed := false }
          nvc := { s.nvc with
            busy := some ⟨.storeGlobal { s.glob with unsaved := false, changed := false },
              s.clock.now, s.clock.now + 10000⟩ } }) ∧
      (s.glob.locked = false →
        exec (.calLock x 15 0 0) s = .next (setReply x .done 1
          { received x s with
            glob := { s.glob with locked := true, changed := false }
            staging := emptyStaging
            nvc := { s.nvc with
              busy := some ⟨.lockWrite { s.glob with locked := true, unsaved := false, changed := false },
                s.clock.now, s.clock.now + 10000⟩ } })) ∧
      (s.glob.locked = true →
        exec (.calLock x 15 0 0) s = .next (setReply x .done 0 (received x s)))) ∧
    (s.nvc.busy ≠ none →
      (chanOf p = some c → exec (.store x p 0 0) s = .next (setReply x .busy 0 (received x s))) ∧
      exec (.calLock x 15 0 0) s = .next (setReply x .busy 0 (received x s)) ∧
      exec (.calErase x 15 0 0) s = .next (setReply x .busy 0 (received x s)))

/-- R188, R185: a write completes: read back valid, the stored record is valid with the snapshot and the
unsaved flag falls unless a change came since; not valid, the record is corrupt and the flag is yes. The
store-busy flag clears, STORE_DONE is posted, and nothing else of the device changes: for a channel's STORE no
other record and nothing else of any channel; for the global record's STORE and the write of CAL LOCK (R190) no
channel and no channel record. -/
def Obligations.StoreCompletes : Prop :=
  (∀ (s : State) (b : Busy) (c : Chan) (snap : CalRecord) (valid : Bool), s.agenda = [] →
    s.nvc.busy = some b → b.done ≤ s.clock.now → b.job = .storeChannel c snap →
    ∃ t, exec (.storeCompletion valid) s = .next t ∧ t.nvc.busy = none ∧
      t.nvc.channels[c].contents = snap ∧
      t.nvc.channels[c].condition c.val = (if valid then .valid else .corrupt) ∧
      (∀ d : Chan, d ≠ c → t.nvc.channels[d] = s.nvc.channels[d]) ∧ t.nvc.glob = s.nvc.glob ∧
      (t.ch c).cal.unsaved = (if valid then (s.ch c).cal.unsaved && (s.ch c).cal.changed else true) ∧
      t.ch c = { s.ch c with cal := { (s.ch c).cal with unsaved := (t.ch c).cal.unsaved } } ∧
      OnlyChannel c s t ∧ t = { s with chans := t.chans, links := t.links, nvc := t.nvc } ∧
      (∀ y, (s.link y).mask.getLsbD 13 = true →
        Holds t y .storeDone none 0 (bytesWord c.val (if valid then 0 else 2)))) ∧
  ∀ (s : State) (b : Busy) (snap : GlobalRecord) (valid : Bool), s.agenda = [] →
    s.nvc.busy = some b → b.done ≤ s.clock.now → b.job = .storeGlobal snap ∨ b.job = .lockWrite snap →
    ∃ t, exec (.storeCompletion valid) s = .next t ∧
      t.nvc = { s.nvc with glob := t.nvc.glob, busy := none } ∧ t.nvc.glob.contents = snap ∧
      t.nvc.glob.condition 15 = (if valid then .valid else .corrupt) ∧
      t.glob = { s.glob with
        unsaved := if valid then s.glob.unsaved && s.glob.changed else true } ∧
      t = { s with glob := t.glob, links := t.links, nvc := t.nvc } ∧
      (∀ y, (s.link y).mask.getLsbD 13 = true →
        Holds t y .storeDone none 0 (bytesWord 15 (if valid then 0 else 2)))

/-- R191, R158, R80: CAL ERASE with every channel IDLE or FAULT: every working record takes the erased
defaults, the lock clears, the staging buffer is discarded, a level above CLOSED_KNOWN falls to it, the
positions of populated channels, claims, lockouts, inhibits and motion states stand, and the flag is busy
for 60 ms; at the completion every stored record is blank and STORE_DONE is posted with result 1. -/
def Obligations.CalEraseErases : Prop :=
  ∀ (s : State) (x : Client), s.calm → s.ready = true → s.hasRight x .calibrate = true →
    s.nvc.busy = none → (∀ c, s.atRest c = true) →
    ∃ t, exec (.calErase x 15 0 0) s = .next t ∧ Replies x .done 0 t ∧
      (∀ c, (t.ch c).cal = defaultCal) ∧ t.glob = defaultGlobal ∧ t.staging = emptyStaging ∧
      t.nvc.busy = some ⟨.erase, s.clock.now, s.clock.now + 60000⟩ ∧
      t.nvc.channels = s.nvc.channels ∧ t.nvc.glob = s.nvc.glob ∧
      (∀ c, (t.ch c).auth = (s.ch c).auth) ∧
      (∀ c, (s.ch c).cal.populated = true →
        (t.ch c).hif = (s.ch c).hif ∧ (t.ch c).moc = (s.ch c).moc ∧
        ((s.ch c).level = .endsKnown ∨ (s.ch c).level = .learned → (t.ch c).level = .closedKnown) ∧
        ((s.ch c).level = .noneKnown ∨ (s.ch c).level = .closedKnown → (t.ch c).level = (s.ch c).level)) ∧
      ∀ u : State, u.agenda = [] → u.nvc.busy = t.nvc.busy → s.clock.now + 60000 ≤ u.clock.now →
        ∃ v, exec .calEraseCompletion u = .next v ∧ v.nvc.busy = none ∧
          (∀ c : Chan, v.nvc.channels[c].condition c.val = .blank) ∧
          v.nvc.glob.condition globalNumber = .blank ∧ v.chans = u.chans ∧
          (∀ y, (u.link y).mask.getLsbD 13 = true → Holds v y .storeDone none 0 (bytesWord 15 1))
end

