-- ==== Sys2Proof/Laws/State.lean ====
section
/-! SUPPORT. One lemma per field of `State` per update, and what an accessor reads after an update. -/

namespace Sys2Proof.Machine

/-! ## Accessors after updates -/

@[simp] theorem ch_updChan_self (c : Chan) (f : Channel → Channel) (s : State) :
    (updChan c f s).ch c = f (s.ch c) := by
  simp [State.ch, updChan]

theorem ch_updChan_ne {c d : Chan} (h : c ≠ d) (f : Channel → Channel) (s : State) :
    (updChan c f s).ch d = s.ch d := by
  have h' : (c : Nat) ≠ (d : Nat) := fun e => h (Fin.ext e)
  simp [State.ch, updChan, Vector.getElem_set_ne, h']

theorem ch_updChan (c d : Chan) (f : Channel → Channel) (s : State) :
    (updChan c f s).ch d = if c = d then f (s.ch d) else s.ch d := by
  by_cases h : c = d
  · subst h; simp
  · simp [h, ch_updChan_ne h]

@[simp] theorem link_updLink_self (x : Client) (f : Link → Link) (s : State) :
    (updLink x f s).link x = f (s.link x) := by
  simp [State.link, updLink]

theorem link_updLink_ne {x y : Client} (h : x ≠ y) (f : Link → Link) (s : State) :
    (updLink x f s).link y = s.link y := by
  have h' : (x : Nat) ≠ (y : Nat) := fun e => h (Fin.ext e)
  simp [State.link, updLink, Vector.getElem_set_ne, h']

theorem link_updLink (x y : Client) (f : Link → Link) (s : State) :
    (updLink x f s).link y = if x = y then f (s.link y) else s.link y := by
  by_cases h : x = y
  · subst h; simp
  · simp [h, link_updLink_ne h]

@[simp] theorem group_setGroup_self (g : Fin 4) (e : Option GroupEntry) (s : State) :
    (setGroup g e s).group g = e := by
  simp [State.group, setGroup]

theorem group_setGroup (g g' : Fin 4) (e : Option GroupEntry) (s : State) :
    (setGroup g e s).group g' = if g = g' then e else s.group g' := by
  by_cases h : g = g'
  · subst h; simp
  · have h' : (g : Nat) ≠ (g' : Nat) := fun e => h (Fin.ext e)
    simp [State.group, setGroup, Vector.getElem_set_ne, h', h]

/-- Two states with the same channels read the same of each channel. -/
theorem ch_congr {s t : State} (h : t.chans = s.chans) (c : Chan) : t.ch c = s.ch c := by
  simp [State.ch, h]

/-- Two states with the same links read the same of each link. -/
theorem link_congr {s t : State} (h : t.links = s.links) (x : Client) : t.link x = s.link x := by
  simp [State.link, h]

/-- A state is determined by its fields; used to compare updates channel by channel. -/
theorem chans_ext {s t : State} (h : ∀ c, t.ch c = s.ch c) : t.chans = s.chans := by
  apply Vector.ext
  intro i hi
  exact h ⟨i, hi⟩

/-- Links are determined by what each link reads. -/
theorem links_ext {s t : State} (h : ∀ x, t.link x = s.link x) : t.links = s.links := by
  apply Vector.ext
  intro i hi
  exact h ⟨i, hi⟩

/-! ## `updChan` -/

@[simp] theorem updChan_clock (c : Chan) (f : Channel → Channel) (s : State) : (updChan c f s).clock = s.clock := rfl
@[simp] theorem updChan_pins (c : Chan) (f : Channel → Channel) (s : State) : (updChan c f s).pins = s.pins := rfl
@[simp] theorem updChan_sup (c : Chan) (f : Channel → Channel) (s : State) : (updChan c f s).sup = s.sup := rfl
@[simp] theorem updChan_lde (c : Chan) (f : Channel → Channel) (s : State) : (updChan c f s).lde = s.lde := rfl
@[simp] theorem updChan_glob (c : Chan) (f : Channel → Channel) (s : State) : (updChan c f s).glob = s.glob := rfl
@[simp] theorem updChan_calLoaded (c : Chan) (f : Channel → Channel) (s : State) : (updChan c f s).calLoaded = s.calLoaded := rfl
@[simp] theorem updChan_startQueue (c : Chan) (f : Channel → Channel) (s : State) : (updChan c f s).startQueue = s.startQueue := rfl
@[simp] theorem updChan_spacing (c : Chan) (f : Channel → Channel) (s : State) : (updChan c f s).spacing = s.spacing := rfl
@[simp] theorem updChan_staging (c : Chan) (f : Channel → Channel) (s : State) : (updChan c f s).staging = s.staging := rfl
@[simp] theorem updChan_groups (c : Chan) (f : Channel → Channel) (s : State) : (updChan c f s).groups = s.groups := rfl
@[simp] theorem updChan_serial (c : Chan) (f : Channel → Channel) (s : State) : (updChan c f s).serial = s.serial := rfl
@[simp] theorem updChan_links (c : Chan) (f : Channel → Channel) (s : State) : (updChan c f s).links = s.links := rfl
@[simp] theorem updChan_ready (c : Chan) (f : Channel → Channel) (s : State) : (updChan c f s).ready = s.ready := rfl
@[simp] theorem updChan_stb (c : Chan) (f : Channel → Channel) (s : State) : (updChan c f s).stb = s.stb := rfl
@[simp] theorem updChan_nvc (c : Chan) (f : Channel → Channel) (s : State) : (updChan c f s).nvc = s.nvc := rfl
@[simp] theorem updChan_fresh (c : Chan) (f : Channel → Channel) (s : State) : (updChan c f s).fresh = s.fresh := rfl
@[simp] theorem updChan_agenda (c : Chan) (f : Channel → Channel) (s : State) : (updChan c f s).agenda = s.agenda := rfl
@[simp] theorem updChan_pending (c : Chan) (f : Channel → Channel) (s : State) : (updChan c f s).pending = s.pending := rfl

/-! ## `updLink` -/

@[simp] theorem updLink_clock (x : Client) (f : Link → Link) (s : State) : (updLink x f s).clock = s.clock := rfl
@[simp] theorem updLink_pins (x : Client) (f : Link → Link) (s : State) : (updLink x f s).pins = s.pins := rfl
@[simp] theorem updLink_chans (x : Client) (f : Link → Link) (s : State) : (updLink x f s).chans = s.chans := rfl
@[simp] theorem updLink_sup (x : Client) (f : Link → Link) (s : State) : (updLink x f s).sup = s.sup := rfl
@[simp] theorem updLink_lde (x : Client) (f : Link → Link) (s : State) : (updLink x f s).lde = s.lde := rfl
@[simp] theorem updLink_glob (x : Client) (f : Link → Link) (s : State) : (updLink x f s).glob = s.glob := rfl
@[simp] theorem updLink_calLoaded (x : Client) (f : Link → Link) (s : State) : (updLink x f s).calLoaded = s.calLoaded := rfl
@[simp] theorem updLink_startQueue (x : Client) (f : Link → Link) (s : State) : (updLink x f s).startQueue = s.startQueue := rfl
@[simp] theorem updLink_spacing (x : Client) (f : Link → Link) (s : State) : (updLink x f s).spacing = s.spacing := rfl
@[simp] theorem updLink_staging (x : Client) (f : Link → Link) (s : State) : (updLink x f s).staging = s.staging := rfl
@[simp] theorem updLink_groups (x : Client) (f : Link → Link) (s : State) : (updLink x f s).groups = s.groups := rfl
@[simp] theorem updLink_serial (x : Client) (f : Link → Link) (s : State) : (updLink x f s).serial = s.serial := rfl
@[simp] theorem updLink_ready (x : Client) (f : Link → Link) (s : State) : (updLink x f s).ready = s.ready := rfl
@[simp] theorem updLink_stb (x : Client) (f : Link → Link) (s : State) : (updLink x f s).stb = s.stb := rfl
@[simp] theorem updLink_nvc (x : Client) (f : Link → Link) (s : State) : (updLink x f s).nvc = s.nvc := rfl
@[simp] theorem updLink_fresh (x : Client) (f : Link → Link) (s : State) : (updLink x f s).fresh = s.fresh := rfl
@[simp] theorem updLink_agenda (x : Client) (f : Link → Link) (s : State) : (updLink x f s).agenda = s.agenda := rfl
@[simp] theorem updLink_pending (x : Client) (f : Link → Link) (s : State) : (updLink x f s).pending = s.pending := rfl

/-! ## `setGroup` -/

@[simp] theorem setGroup_clock (g : Fin 4) (e : Option GroupEntry) (s : State) : (setGroup g e s).clock = s.clock := rfl
@[simp] theorem setGroup_pins (g : Fin 4) (e : Option GroupEntry) (s : State) : (setGroup g e s).pins = s.pins := rfl
@[simp] theorem setGroup_chans (g : Fin 4) (e : Option GroupEntry) (s : State) : (setGroup g e s).chans = s.chans := rfl
@[simp] theorem setGroup_sup (g : Fin 4) (e : Option GroupEntry) (s : State) : (setGroup g e s).sup = s.sup := rfl
@[simp] theorem setGroup_lde (g : Fin 4) (e : Option GroupEntry) (s : State) : (setGroup g e s).lde = s.lde := rfl
@[simp] theorem setGroup_glob (g : Fin 4) (e : Option GroupEntry) (s : State) : (setGroup g e s).glob = s.glob := rfl
@[simp] theorem setGroup_calLoaded (g : Fin 4) (e : Option GroupEntry) (s : State) : (setGroup g e s).calLoaded = s.calLoaded := rfl
@[simp] theorem setGroup_startQueue (g : Fin 4) (e : Option GroupEntry) (s : State) : (setGroup g e s).startQueue = s.startQueue := rfl
@[simp] theorem setGroup_spacing (g : Fin 4) (e : Option GroupEntry) (s : State) : (setGroup g e s).spacing = s.spacing := rfl
@[simp] theorem setGroup_staging (g : Fin 4) (e : Option GroupEntry) (s : State) : (setGroup g e s).staging = s.staging := rfl
@[simp] theorem setGroup_serial (g : Fin 4) (e : Option GroupEntry) (s : State) : (setGroup g e s).serial = s.serial := rfl
@[simp] theorem setGroup_links (g : Fin 4) (e : Option GroupEntry) (s : State) : (setGroup g e s).links = s.links := rfl
@[simp] theorem setGroup_ready (g : Fin 4) (e : Option GroupEntry) (s : State) : (setGroup g e s).ready = s.ready := rfl
@[simp] theorem setGroup_stb (g : Fin 4) (e : Option GroupEntry) (s : State) : (setGroup g e s).stb = s.stb := rfl
@[simp] theorem setGroup_nvc (g : Fin 4) (e : Option GroupEntry) (s : State) : (setGroup g e s).nvc = s.nvc := rfl
@[simp] theorem setGroup_fresh (g : Fin 4) (e : Option GroupEntry) (s : State) : (setGroup g e s).fresh = s.fresh := rfl
@[simp] theorem setGroup_agenda (g : Fin 4) (e : Option GroupEntry) (s : State) : (setGroup g e s).agenda = s.agenda := rfl
@[simp] theorem setGroup_pending (g : Fin 4) (e : Option GroupEntry) (s : State) : (setGroup g e s).pending = s.pending := rfl

/-! ## `push` -/

@[simp] theorem push_clock (t : Task) (s : State) : (push t s).clock = s.clock := rfl
@[simp] theorem push_pins (t : Task) (s : State) : (push t s).pins = s.pins := rfl
@[simp] theorem push_chans (t : Task) (s : State) : (push t s).chans = s.chans := rfl
@[simp] theorem push_sup (t : Task) (s : State) : (push t s).sup = s.sup := rfl
@[simp] theorem push_lde (t : Task) (s : State) : (push t s).lde = s.lde := rfl
@[simp] theorem push_glob (t : Task) (s : State) : (push t s).glob = s.glob := rfl
@[simp] theorem push_calLoaded (t : Task) (s : State) : (push t s).calLoaded = s.calLoaded := rfl
@[simp] theorem push_startQueue (t : Task) (s : State) : (push t s).startQueue = s.startQueue := rfl
@[simp] theorem push_spacing (t : Task) (s : State) : (push t s).spacing = s.spacing := rfl
@[simp] theorem push_staging (t : Task) (s : State) : (push t s).staging = s.staging := rfl
@[simp] theorem push_groups (t : Task) (s : State) : (push t s).groups = s.groups := rfl
@[simp] theorem push_serial (t : Task) (s : State) : (push t s).serial = s.serial := rfl
@[simp] theorem push_links (t : Task) (s : State) : (push t s).links = s.links := rfl
@[simp] theorem push_ready (t : Task) (s : State) : (push t s).ready = s.ready := rfl
@[simp] theorem push_stb (t : Task) (s : State) : (push t s).stb = s.stb := rfl
@[simp] theorem push_nvc (t : Task) (s : State) : (push t s).nvc = s.nvc := rfl
@[simp] theorem push_fresh (t : Task) (s : State) : (push t s).fresh = s.fresh := rfl
@[simp] theorem push_pending (t : Task) (s : State) : (push t s).pending = s.pending := rfl

/-! ## `updGlobal` -/

@[simp] theorem updGlobal_clock (f : GlobalRecord → GlobalRecord) (s : State) : (updGlobal f s).clock = s.clock := rfl
@[simp] theorem updGlobal_pins (f : GlobalRecord → GlobalRecord) (s : State) : (updGlobal f s).pins = s.pins := rfl
@[simp] theorem updGlobal_chans (f : GlobalRecord → GlobalRecord) (s : State) : (updGlobal f s).chans = s.chans := rfl
@[simp] theorem updGlobal_sup (f : GlobalRecord → GlobalRecord) (s : State) : (updGlobal f s).sup = s.sup := rfl
@[simp] theorem updGlobal_lde (f : GlobalRecord → GlobalRecord) (s : State) : (updGlobal f s).lde = s.lde := rfl
@[simp] theorem updGlobal_calLoaded (f : GlobalRecord → GlobalRecord) (s : State) : (updGlobal f s).calLoaded = s.calLoaded := rfl
@[simp] theorem updGlobal_startQueue (f : GlobalRecord → GlobalRecord) (s : State) : (updGlobal f s).startQueue = s.startQueue := rfl
@[simp] theorem updGlobal_spacing (f : GlobalRecord → GlobalRecord) (s : State) : (updGlobal f s).spacing = s.spacing := rfl
@[simp] theorem updGlobal_staging (f : GlobalRecord → GlobalRecord) (s : State) : (updGlobal f s).staging = s.staging := rfl
@[simp] theorem updGlobal_groups (f : GlobalRecord → GlobalRecord) (s : State) : (updGlobal f s).groups = s.groups := rfl
@[simp] theorem updGlobal_serial (f : GlobalRecord → GlobalRecord) (s : State) : (updGlobal f s).serial = s.serial := rfl
@[simp] theorem updGlobal_links (f : GlobalRecord → GlobalRecord) (s : State) : (updGlobal f s).links = s.links := rfl
@[simp] theorem updGlobal_ready (f : GlobalRecord → GlobalRecord) (s : State) : (updGlobal f s).ready = s.ready := rfl
@[simp] theorem updGlobal_stb (f : GlobalRecord → GlobalRecord) (s : State) : (updGlobal f s).stb = s.stb := rfl
@[simp] theorem updGlobal_nvc (f : GlobalRecord → GlobalRecord) (s : State) : (updGlobal f s).nvc = s.nvc := rfl
@[simp] theorem updGlobal_fresh (f : GlobalRecord → GlobalRecord) (s : State) : (updGlobal f s).fresh = s.fresh := rfl
@[simp] theorem updGlobal_agenda (f : GlobalRecord → GlobalRecord) (s : State) : (updGlobal f s).agenda = s.agenda := rfl
@[simp] theorem updGlobal_pending (f : GlobalRecord → GlobalRecord) (s : State) : (updGlobal f s).pending = s.pending := rfl

/-! ## `elapse` -/

@[simp] theorem elapse_pins (k : Nat) (s : State) : (elapse k s).pins = s.pins := rfl
@[simp] theorem elapse_chans (k : Nat) (s : State) : (elapse k s).chans = s.chans := rfl
@[simp] theorem elapse_sup (k : Nat) (s : State) : (elapse k s).sup = s.sup := rfl
@[simp] theorem elapse_lde (k : Nat) (s : State) : (elapse k s).lde = s.lde := rfl
@[simp] theorem elapse_glob (k : Nat) (s : State) : (elapse k s).glob = s.glob := rfl
@[simp] theorem elapse_calLoaded (k : Nat) (s : State) : (elapse k s).calLoaded = s.calLoaded := rfl
@[simp] theorem elapse_startQueue (k : Nat) (s : State) : (elapse k s).startQueue = s.startQueue := rfl
@[simp] theorem elapse_spacing (k : Nat) (s : State) : (elapse k s).spacing = s.spacing := rfl
@[simp] theorem elapse_staging (k : Nat) (s : State) : (elapse k s).staging = s.staging := rfl
@[simp] theorem elapse_groups (k : Nat) (s : State) : (elapse k s).groups = s.groups := rfl
@[simp] theorem elapse_serial (k : Nat) (s : State) : (elapse k s).serial = s.serial := rfl
@[simp] theorem elapse_links (k : Nat) (s : State) : (elapse k s).links = s.links := rfl
@[simp] theorem elapse_ready (k : Nat) (s : State) : (elapse k s).ready = s.ready := rfl
@[simp] theorem elapse_stb (k : Nat) (s : State) : (elapse k s).stb = s.stb := rfl
@[simp] theorem elapse_nvc (k : Nat) (s : State) : (elapse k s).nvc = s.nvc := rfl
@[simp] theorem elapse_fresh (k : Nat) (s : State) : (elapse k s).fresh = s.fresh := rfl
@[simp] theorem elapse_agenda (k : Nat) (s : State) : (elapse k s).agenda = s.agenda := rfl
@[simp] theorem elapse_pending (k : Nat) (s : State) : (elapse k s).pending = s.pending := rfl

/-! ## `leaveQueue` -/

@[simp] theorem leaveQueue_clock (c : Chan) (s : State) : (leaveQueue c s).clock = s.clock := rfl
@[simp] theorem leaveQueue_pins (c : Chan) (s : State) : (leaveQueue c s).pins = s.pins := rfl
@[simp] theorem leaveQueue_chans (c : Chan) (s : State) : (leaveQueue c s).chans = s.chans := rfl
@[simp] theorem leaveQueue_sup (c : Chan) (s : State) : (leaveQueue c s).sup = s.sup := rfl
@[simp] theorem leaveQueue_lde (c : Chan) (s : State) : (leaveQueue c s).lde = s.lde := rfl
@[simp] theorem leaveQueue_glob (c : Chan) (s : State) : (leaveQueue c s).glob = s.glob := rfl
@[simp] theorem leaveQueue_calLoaded (c : Chan) (s : State) : (leaveQueue c s).calLoaded = s.calLoaded := rfl
@[simp] theorem leaveQueue_spacing (c : Chan) (s : State) : (leaveQueue c s).spacing = s.spacing := rfl
@[simp] theorem leaveQueue_staging (c : Chan) (s : State) : (leaveQueue c s).staging = s.staging := rfl
@[simp] theorem leaveQueue_groups (c : Chan) (s : State) : (leaveQueue c s).groups = s.groups := rfl
@[simp] theorem leaveQueue_serial (c : Chan) (s : State) : (leaveQueue c s).serial = s.serial := rfl
@[simp] theorem leaveQueue_links (c : Chan) (s : State) : (leaveQueue c s).links = s.links := rfl
@[simp] theorem leaveQueue_ready (c : Chan) (s : State) : (leaveQueue c s).ready = s.ready := rfl
@[simp] theorem leaveQueue_stb (c : Chan) (s : State) : (leaveQueue c s).stb = s.stb := rfl
@[simp] theorem leaveQueue_nvc (c : Chan) (s : State) : (leaveQueue c s).nvc = s.nvc := rfl
@[simp] theorem leaveQueue_fresh (c : Chan) (s : State) : (leaveQueue c s).fresh = s.fresh := rfl
@[simp] theorem leaveQueue_agenda (c : Chan) (s : State) : (leaveQueue c s).agenda = s.agenda := rfl
@[simp] theorem leaveQueue_pending (c : Chan) (s : State) : (leaveQueue c s).pending = s.pending := rfl

@[simp] theorem push_agenda (t : Task) (s : State) : (push t s).agenda = s.agenda ++ [t] := rfl
@[simp] theorem updGlobal_glob (f : GlobalRecord → GlobalRecord) (s : State) : (updGlobal f s).glob = f s.glob := rfl
@[simp] theorem leaveQueue_startQueue (c : Chan) (s : State) :
    (leaveQueue c s).startQueue = s.startQueue.filter (· ≠ c) := rfl

/-! ## What an accessor reads where its part is untouched -/

@[simp] theorem ch_updLink (x : Client) (f : Link → Link) (s : State) (c : Chan) : (updLink x f s).ch c = s.ch c := rfl
@[simp] theorem ch_setGroup (g : Fin 4) (e : Option GroupEntry) (s : State) (c : Chan) : (setGroup g e s).ch c = s.ch c := rfl
@[simp] theorem ch_push (t : Task) (s : State) (c : Chan) : (push t s).ch c = s.ch c := rfl
@[simp] theorem ch_updGlobal (f : GlobalRecord → GlobalRecord) (s : State) (c : Chan) : (updGlobal f s).ch c = s.ch c := rfl
@[simp] theorem ch_elapse (k : Nat) (s : State) (c : Chan) : (elapse k s).ch c = s.ch c := rfl
@[simp] theorem ch_leaveQueue (d : Chan) (s : State) (c : Chan) : (leaveQueue d s).ch c = s.ch c := rfl
@[simp] theorem link_updChan (c : Chan) (f : Channel → Channel) (s : State) (x : Client) : (updChan c f s).link x = s.link x := rfl
@[simp] theorem link_setGroup (g : Fin 4) (e : Option GroupEntry) (s : State) (x : Client) : (setGroup g e s).link x = s.link x := rfl
@[simp] theorem link_push (t : Task) (s : State) (x : Client) : (push t s).link x = s.link x := rfl
@[simp] theorem link_updGlobal (f : GlobalRecord → GlobalRecord) (s : State) (x : Client) : (updGlobal f s).link x = s.link x := rfl
@[simp] theorem link_elapse (k : Nat) (s : State) (x : Client) : (elapse k s).link x = s.link x := rfl
@[simp] theorem link_leaveQueue (d : Chan) (s : State) (x : Client) : (leaveQueue d s).link x = s.link x := rfl
@[simp] theorem group_updChan (c : Chan) (f : Channel → Channel) (s : State) (g : Fin 4) : (updChan c f s).group g = s.group g := rfl
@[simp] theorem group_updLink (x : Client) (f : Link → Link) (s : State) (g : Fin 4) : (updLink x f s).group g = s.group g := rfl
@[simp] theorem group_push (t : Task) (s : State) (g : Fin 4) : (push t s).group g = s.group g := rfl

/-! ## The parts of a channel -/

theorem updHif_eq (c : Chan) (f : Hif → Hif) : updHif c f = updChan c (fun k => { k with hif := f k.hif }) := rfl
theorem updCtx_eq (c : Chan) (f : LoadContext → LoadContext) :
    updCtx c f = updChan c (fun k => { k with ctx := f k.ctx }) := rfl
theorem updCal_eq (c : Chan) (f : CalRecord → CalRecord) :
    updCal c f = updChan c (fun k => { k with cal := f k.cal }) := rfl
theorem updMoc_eq (c : Chan) (f : Moc → Moc) : updMoc c f = updChan c (fun k => { k with moc := f k.moc }) := rfl
theorem updAuth_eq (c : Chan) (f : Auth → Auth) :
    updAuth c f = updChan c (fun k => { k with auth := f k.auth }) := rfl
theorem setHold_eq (c : Chan) (h : Hold) : setHold c h = updChan c (fun k => { k with hold := h }) := rfl
theorem updLearning_eq (c : Chan) (f : Learning → Learning) :
    updLearning c f = updChan c (fun k => { k with learning := f k.learning }) := rfl

@[simp] theorem updHif_id_moc (c d : Chan) (f : Hif → Hif) (s : State) :
    ((updHif c f s).ch d).moc = (s.ch d).moc := by
  rw [updHif_eq, ch_updChan]; split <;> rfl
@[simp] theorem updHif_id_cal (c d : Chan) (f : Hif → Hif) (s : State) :
    ((updHif c f s).ch d).cal = (s.ch d).cal := by
  rw [updHif_eq, ch_updChan]; split <;> rfl
@[simp] theorem updCal_id_moc (c d : Chan) (f : CalRecord → CalRecord) (s : State) :
    ((updCal c f s).ch d).moc = (s.ch d).moc := by
  rw [updCal_eq, ch_updChan]; split <;> rfl
@[simp] theorem updCal_id_hif (c d : Chan) (f : CalRecord → CalRecord) (s : State) :
    ((updCal c f s).ch d).hif = (s.ch d).hif := by
  rw [updCal_eq, ch_updChan]; split <;> rfl
@[simp] theorem updMoc_id_hif (c d : Chan) (f : Moc → Moc) (s : State) :
    ((updMoc c f s).ch d).hif = (s.ch d).hif := by
  rw [updMoc_eq, ch_updChan]; split <;> rfl
@[simp] theorem updMoc_id_cal (c d : Chan) (f : Moc → Moc) (s : State) :
    ((updMoc c f s).ch d).cal = (s.ch d).cal := by
  rw [updMoc_eq, ch_updChan]; split <;> rfl
@[simp] theorem updAuth_id_moc (c d : Chan) (f : Auth → Auth) (s : State) :
    ((updAuth c f s).ch d).moc = (s.ch d).moc := by
  rw [updAuth_eq, ch_updChan]; split <;> rfl

end Sys2Proof.Machine
end

