-- ==== Sys2Proof/Laws/Ops.lean ====
section
/-! SUPPORT. What each shared operation can do, said once: which blocks it leaves alone, what it writes,
and what an action that leaves nothing to be done ends in. -/

namespace Sys2Proof.Machine

/-! ## Frames compose -/

theorem OnlyLinks.refl (s : State) : OnlyLinks s s := rfl

theorem OnlyLinks.trans {s t u : State} (h : OnlyLinks s t) (k : OnlyLinks t u) : OnlyLinks s u := by
  unfold OnlyLinks at *
  rw [k, h]

theorem OnlyChannel.refl (c : Chan) (s : State) : OnlyChannel c s s := fun _ _ => rfl

theorem OnlyChannel.trans {c : Chan} {s t u : State} (h : OnlyChannel c s t) (k : OnlyChannel c t u) :
    OnlyChannel c s u := fun d hd => (k d hd).trans (h d hd)

theorem SameDevice.refl (s : State) : SameDevice s s := by simp [SameDevice]

theorem SameDevice.trans {s t u : State} (h : SameDevice s t) (k : SameDevice t u) : SameDevice s u := by
  unfold SameDevice at *
  simp only [k, h, and_self]

theorem OnlyLinks.ch {s t : State} (h : OnlyLinks s t) (c : Chan) : t.ch c = s.ch c := by
  rw [h]; rfl

theorem OnlyLinks.onlyChannel {s t : State} (h : OnlyLinks s t) (c : Chan) : OnlyChannel c s t :=
  fun d _ => h.ch d

theorem OnlyLinks.sameDevice {s t : State} (h : OnlyLinks s t) : SameDevice s t := by
  rw [h]; simp [SameDevice]

theorem onlyLinks_updLink (x : Client) (f : Link → Link) (s : State) : OnlyLinks s (updLink x f s) := rfl

theorem onlyChannel_updChan (c : Chan) (f : Channel → Channel) (s : State) :
    OnlyChannel c s (updChan c f s) := fun _ hd => ch_updChan_ne (Ne.symm hd) f s

theorem sameDevice_updChan (c : Chan) (f : Channel → Channel) (s : State) :
    SameDevice s (updChan c f s) := by simp [SameDevice]

/-! ## The parts of a channel, read back -/

@[simp] theorem ch_updHif_self (c : Chan) (f : Hif → Hif) (s : State) :
    (updHif c f s).ch c = { s.ch c with hif := f (s.ch c).hif } := ch_updChan_self ..
@[simp] theorem ch_updCtx_self (c : Chan) (f : LoadContext → LoadContext) (s : State) :
    (updCtx c f s).ch c = { s.ch c with ctx := f (s.ch c).ctx } := ch_updChan_self ..
@[simp] theorem ch_updCal_self (c : Chan) (f : CalRecord → CalRecord) (s : State) :
    (updCal c f s).ch c = { s.ch c with cal := f (s.ch c).cal } := ch_updChan_self ..
@[simp] theorem ch_updMoc_self (c : Chan) (f : Moc → Moc) (s : State) :
    (updMoc c f s).ch c = { s.ch c with moc := f (s.ch c).moc } := ch_updChan_self ..
@[simp] theorem ch_updAuth_self (c : Chan) (f : Auth → Auth) (s : State) :
    (updAuth c f s).ch c = { s.ch c with auth := f (s.ch c).auth } := ch_updChan_self ..
@[simp] theorem ch_setHold_self (c : Chan) (h : Hold) (s : State) :
    (setHold c h s).ch c = { s.ch c with hold := h } := ch_updChan_self ..
@[simp] theorem ch_updLearning_self (c : Chan) (f : Learning → Learning) (s : State) :
    (updLearning c f s).ch c = { s.ch c with learning := f (s.ch c).learning } := ch_updChan_self ..

/-! ## Posting an event (R180, R181) -/

/-- Delivering a record changes link `x` alone. -/
theorem deliver_eq (e : Event) (s : State) (x : Client) :
    deliver e s x = if s.selects e x then updLink x (joinQueue e) s else s := rfl

theorem onlyLinks_deliver (e : Event) (s : State) (x : Client) : OnlyLinks s (deliver e s x) := by
  unfold deliver
  split
  · exact onlyLinks_updLink ..
  · rfl

theorem onlyLinks_foldl_deliver (e : Event) (l : List Client) (s : State) :
    OnlyLinks s (l.foldl (deliver e) s) := by
  induction l generalizing s with
  | nil => rfl
  | cons x l ih => exact (onlyLinks_deliver e s x).trans (ih _)

/-- Posting an event changes what CLI holds for the links and nothing else. -/
theorem onlyLinks_post (k : EventKind) (c : Option Chan) (w d : Word) (s : State) :
    OnlyLinks s (post k c w d s) := by
  have h : post k c w d s = allClients.foldl (deliver ⟨k, c, w, d, s.clock.ms⟩) s ∨ post k c w d s = s := by
    simp only [post]
    split
    · split
      · exact .inl rfl
      · exact .inr rfl
    · exact .inl rfl
  rcases h with h | h <;> rw [h]
  · exact onlyLinks_foldl_deliver ..
  · rfl

/-- A record joins the queue of link `y` only, and whether `y` selects it depends on `y`'s own mask. -/
theorem link_deliver (e : Event) (s : State) (x y : Client) :
    (deliver e s x).link y =
      if x = y ∧ s.selects e y = true then joinQueue e (s.link y) else s.link y := by
  unfold deliver
  by_cases h : x = y
  · subst h
    by_cases hs : s.selects e x = true <;> simp [hs]
  · split <;> simp [h, link_updLink_ne h]

theorem selects_deliver_ne (e : Event) (s : State) {x y : Client} (h : x ≠ y) :
    (deliver e s x).selects e y = s.selects e y := by
  unfold deliver
  split
  · simp only [State.selects, link_updLink_ne h, State.mayAct, State.rights, updLink_glob]
  · rfl

/-- R180: what a link reads after a record was posted to the four clients. -/
theorem link_deliverAll (e : Event) (s : State) (y : Client) :
    (allClients.foldl (deliver e) s).link y =
      if s.selects e y then joinQueue e (s.link y) else s.link y := by
  have step : ∀ (l : List Client) (s : State), l.Nodup →
      (l.foldl (deliver e) s).link y =
        if y ∈ l ∧ s.selects e y = true then joinQueue e (s.link y) else s.link y := by
    intro l
    induction l with
    | nil => intro s _; simp
    | cons x l ih =>
      intro s hn
      rw [List.foldl_cons, ih _ (List.nodup_cons.mp hn).2]
      by_cases h : x = y
      · subst h
        simp [(List.nodup_cons.mp hn).1, link_deliver]
      · rw [selects_deliver_ne e s h, link_deliver]
        simp [h, Ne.symm h]
  rw [step _ _ (by decide)]
  have hy : ∀ z : Client, z ∈ allClients := by decide
  simp [hy y]

/-- R180, R62: what a link reads after an event about channel `c` was posted. -/
theorem link_post (k : EventKind) (c : Chan) (w d : Word) (s : State) (y : Client) :
    (post k (some c) w d s).link y =
      if s.populated c = true ∧ s.selects ⟨k, some c, w, d, s.clock.ms⟩ y = true then
        joinQueue ⟨k, some c, w, d, s.clock.ms⟩ (s.link y)
      else s.link y := by
  unfold post
  by_cases h : s.populated c = true
  · simp [h, link_deliverAll]
  · simp [h]

/-- What a link reads after an event of the whole device was posted. -/
theorem link_post_none (k : EventKind) (w d : Word) (s : State) (y : Client) :
    (post k none w d s).link y =
      if s.selects ⟨k, none, w, d, s.clock.ms⟩ y = true then
        joinQueue ⟨k, none, w, d, s.clock.ms⟩ (s.link y)
      else s.link y := by
  unfold post
  simp [link_deliverAll]

/-- R181: a queue of at most 16 records stays so when one joins, and the new record is in it. -/
theorem length_joinQueue {e : Event} {l : Link} (h : l.queue.length ≤ 16) :
    (joinQueue e l).queue.length ≤ 16 := by
  unfold joinQueue
  split <;> simp <;> omega

theorem mem_joinQueue (e : Event) (l : Link) : e ∈ (joinQueue e l).queue := by
  unfold joinQueue
  split <;> simp

theorem lost_joinQueue {e : Event} {l : Link} (h : l.lost ≤ 255) : (joinQueue e l).lost ≤ 255 := by
  unfold joinQueue
  split
  · simp [satSucc]
  · exact h

@[simp] theorem ch_post (k : EventKind) (c : Option Chan) (w d : Word) (s : State) (e : Chan) :
    (post k c w d s).ch e = s.ch e := (onlyLinks_post k c w d s).ch e
@[simp] theorem post_clock (k : EventKind) (c : Option Chan) (w d : Word) (s : State) :
    (post k c w d s).clock = s.clock := by rw [onlyLinks_post]
@[simp] theorem post_pins (k : EventKind) (c : Option Chan) (w d : Word) (s : State) :
    (post k c w d s).pins = s.pins := by rw [onlyLinks_post]
@[simp] theorem post_sup (k : EventKind) (c : Option Chan) (w d : Word) (s : State) :
    (post k c w d s).sup = s.sup := by rw [onlyLinks_post]
@[simp] theorem post_lde (k : EventKind) (c : Option Chan) (w d : Word) (s : State) :
    (post k c w d s).lde = s.lde := by rw [onlyLinks_post]
@[simp] theorem post_glob (k : EventKind) (c : Option Chan) (w d : Word) (s : State) :
    (post k c w d s).glob = s.glob := by rw [onlyLinks_post]
@[simp] theorem post_calLoaded (k : EventKind) (c : Option Chan) (w d : Word) (s : State) :
    (post k c w d s).calLoaded = s.calLoaded := by rw [onlyLinks_post]
@[simp] theorem post_startQueue (k : EventKind) (c : Option Chan) (w d : Word) (s : State) :
    (post k c w d s).startQueue = s.startQueue := by rw [onlyLinks_post]
@[simp] theorem post_spacing (k : EventKind) (c : Option Chan) (w d : Word) (s : State) :
    (post k c w d s).spacing = s.spacing := by rw [onlyLinks_post]
@[simp] theorem post_staging (k : EventKind) (c : Option Chan) (w d : Word) (s : State) :
    (post k c w d s).staging = s.staging := by rw [onlyLinks_post]
@[simp] theorem post_groups (k : EventKind) (c : Option Chan) (w d : Word) (s : State) :
    (post k c w d s).groups = s.groups := by rw [onlyLinks_post]
@[simp] theorem post_serial (k : EventKind) (c : Option Chan) (w d : Word) (s : State) :
    (post k c w d s).serial = s.serial := by rw [onlyLinks_post]
@[simp] theorem post_ready (k : EventKind) (c : Option Chan) (w d : Word) (s : State) :
    (post k c w d s).ready = s.ready := by rw [onlyLinks_post]
@[simp] theorem post_stb (k : EventKind) (c : Option Chan) (w d : Word) (s : State) :
    (post k c w d s).stb = s.stb := by rw [onlyLinks_post]
@[simp] theorem post_nvc (k : EventKind) (c : Option Chan) (w d : Word) (s : State) :
    (post k c w d s).nvc = s.nvc := by rw [onlyLinks_post]
@[simp] theorem post_fresh (k : EventKind) (c : Option Chan) (w d : Word) (s : State) :
    (post k c w d s).fresh = s.fresh := by rw [onlyLinks_post]
@[simp] theorem post_agenda (k : EventKind) (c : Option Chan) (w d : Word) (s : State) :
    (post k c w d s).agenda = s.agenda := by rw [onlyLinks_post]
@[simp] theorem post_pending (k : EventKind) (c : Option Chan) (w d : Word) (s : State) :
    (post k c w d s).pending = s.pending := by rw [onlyLinks_post]

/-! ## Doing what is left to be done -/

/-- An action that left nothing to be done ends as it stands. -/
theorem settle_of_nil {s : State} (h : s.agenda = []) : settle s = s := by
  simp [settle, settleN, h]

theorem settleN_of_nil {s : State} (h : s.agenda = []) (n : Nat) : settleN n s = s := by
  cases n with
  | zero => cases s; simp_all [settleN]
  | succ n => simp [settleN, h]

/-- Nothing is left to be done after `settle`. -/
theorem settleN_agenda (n : Nat) (s : State) : (settleN n s).agenda = [] := by
  induction n generalizing s with
  | zero => rfl
  | succ n ih =>
    unfold settleN
    split
    · assumption
    · exact ih _

theorem settle_agenda (s : State) : (settle s).agenda = [] := settleN_agenda _ s

/-- A property that every task keeps, whatever is left to be done, holds after `settle`. -/
theorem settleN_induct {P : State → Prop} (ha : ∀ s a, P s → P { s with agenda := a })
    (ht : ∀ t s, P s → P (runTask t s)) (n : Nat) {s : State} (h : P s) : P (settleN n s) := by
  induction n generalizing s with
  | zero => exact ha _ _ h
  | succ n ih =>
    unfold settleN
    split
    · exact h
    · exact ih (ht _ _ (ha _ _ h))

theorem settle_induct {P : State → Prop} (ha : ∀ s a, P s → P { s with agenda := a })
    (ht : ∀ t s, P s → P (runTask t s)) {s : State} (h : P s) : P (settle s) :=
  settleN_induct ha ht _ h

/-- R109: with an empty start queue a grant test grants nothing. -/
theorem grantTest_of_empty {s : State} (h : s.startQueue = []) : grantTest s = s := by
  unfold grantTest
  split
  · simp [State.eligible, h]
  · rfl

/-- R152: a channel that does not wait is not resumed by a test of its hold. -/
theorem followerAfter_of_not_waiting {c : Chan} {s : State} (h : (s.ch c).moc.motion ≠ .waiting) :
    followerAfter c s = s := by
  simp [followerAfter, h]

theorem leaderAfterEnd_of_not_waiting {c p : Chan} {own : Option Chan} {ok : Bool} {s : State}
    (h : (s.ch p).moc.motion ≠ .waiting) : leaderAfterEnd c own ok s p = s := by
  simp [leaderAfterEnd, State.waitsOn, h]

theorem leaderAfterMove_of_not_waiting {c p : Chan} {s : State}
    (h : (s.ch p).moc.motion ≠ .waiting) : leaderAfterMove c s p = s := by
  simp [leaderAfterMove, State.waitsOn, h]

/-- With nothing queued and nobody waiting, no task changes anything: what an action leaves to be done
is then nothing. -/
theorem runTask_of_quiet {t : Task} {s : State} (hq : s.startQueue = [])
    (hw : ∀ c, (s.ch c).moc.motion ≠ .waiting) : runTask t s = s := by
  cases t with
  | grantTest => exact grantTest_of_empty hq
  | orderEnded c waiters own ok =>
    show waiters.foldl (leaderAfterEnd c own ok) s = s
    induction waiters with
    | nil => rfl
    | cons p l ih => rw [List.foldl_cons, leaderAfterEnd_of_not_waiting (hw p)]; exact ih
  | moved c waiters =>
    show waiters.foldl (leaderAfterMove c) s = s
    induction waiters with
    | nil => rfl
    | cons p l ih => rw [List.foldl_cons, leaderAfterMove_of_not_waiting (hw p)]; exact ih
  | followerTest c => exact followerAfter_of_not_waiting (hw c)

theorem settleN_of_quiet (n : Nat) {s : State} (hq : s.startQueue = [])
    (hw : ∀ c, (s.ch c).moc.motion ≠ .waiting) : settleN n s = { s with agenda := [] } := by
  induction n generalizing s with
  | zero => rfl
  | succ n ih =>
    unfold settleN
    split
    · next h => cases s; simp_all
    · next t ts h =>
      have hw' : ∀ c, (({ s with agenda := ts } : State).ch c).moc.motion ≠ .waiting := hw
      rw [runTask_of_quiet (s := { s with agenda := ts }) hq hw', ih (s := { s with agenda := ts }) hq hw']

/-- In a state with an empty start queue and no channel WAITING, an action ends as its own effect left
it. -/
theorem settle_of_quiet {s : State} (hq : s.startQueue = [])
    (hw : ∀ c, (s.ch c).moc.motion ≠ .waiting) : settle s = { s with agenda := [] } :=
  settleN_of_quiet _ hq hw

theorem settle_of_calm {s : State} (h : s.calm) : settle s = s := settle_of_nil h.1

/-! ## Serving a request (R171, R172) -/

/-- What a served request answers. -/
theorem serve_eq (x : Client) (body : State → Answer) (s : State) :
    serve x body s = .next (setReply x (body (received x s)).result (body (received x s)).data
      (settle (body (received x s)).state)) := rfl

/-- A request whose owner changes nothing answers the received state with the reply set. -/
theorem serve_unchanged {x : Client} {body : State → Answer} {s : State} (ha : s.agenda = [])
    (h : (body (received x s)).state = received x s) :
    serve x body s = .next (setReply x (body (received x s)).result (body (received x s)).data
      (received x s)) := by
  rw [serve_eq, h, settle_of_nil (s := received x s) ha]

theorem finish_eq (s : State) : finish s = .next (settle s) := rfl

theorem onlyLinks_received (x : Client) (s : State) : OnlyLinks s (received x s) := rfl
@[simp] theorem ch_received (x : Client) (s : State) (c : Chan) : (received x s).ch c = s.ch c := rfl
@[simp] theorem received_ready (x : Client) (s : State) : (received x s).ready = s.ready := rfl
@[simp] theorem received_agenda (x : Client) (s : State) : (received x s).agenda = s.agenda := rfl
@[simp] theorem received_glob (x : Client) (s : State) : (received x s).glob = s.glob := rfl
@[simp] theorem received_clock (x : Client) (s : State) : (received x s).clock = s.clock := rfl
@[simp] theorem received_nvc (x : Client) (s : State) : (received x s).nvc = s.nvc := rfl
@[simp] theorem received_sup (x : Client) (s : State) : (received x s).sup = s.sup := rfl
@[simp] theorem received_staging (x : Client) (s : State) : (received x s).staging = s.staging := rfl
@[simp] theorem received_startQueue (x : Client) (s : State) : (received x s).startQueue = s.startQueue := rfl
@[simp] theorem received_calLoaded (x : Client) (s : State) : (received x s).calLoaded = s.calLoaded := rfl
@[simp] theorem mayAct_received (x y : Client) (c : Chan) (s : State) :
    (received x s).mayAct y c = s.mayAct y c := rfl
@[simp] theorem hasRight_received (x y : Client) (r : Right) (s : State) :
    (received x s).hasRight y r = s.hasRight y r := rfl

theorem calm_received {x : Client} {s : State} (h : s.calm) : (received x s).calm := h

theorem link_received_ne {x y : Client} (h : x ≠ y) (s : State) : (received x s).link y = s.link y := by
  simp [received, noteValidFrame, shiftReply, link_updLink_ne h]

@[simp] theorem queue_received (x y : Client) (s : State) :
    ((received x s).link y).queue = (s.link y).queue := by
  by_cases h : x = y
  · subst h; simp [received, noteValidFrame, shiftReply]
  · rw [link_received_ne h]

@[simp] theorem mask_received (x y : Client) (s : State) :
    ((received x s).link y).mask = (s.link y).mask := by
  by_cases h : x = y
  · subst h; simp [received, noteValidFrame, shiftReply]
  · rw [link_received_ne h]

theorem onlyLinks_setReply (x : Client) (r : Result) (d : Word) (s : State) :
    OnlyLinks s (setReply x r d s) := rfl
@[simp] theorem ch_setReply (x : Client) (r : Result) (d : Word) (s : State) (c : Chan) :
    (setReply x r d s).ch c = s.ch c := rfl
@[simp] theorem setReply_agenda (x : Client) (r : Result) (d : Word) (s : State) :
    (setReply x r d s).agenda = s.agenda := rfl
@[simp] theorem setReply_startQueue (x : Client) (r : Result) (d : Word) (s : State) :
    (setReply x r d s).startQueue = s.startQueue := rfl
@[simp] theorem group_setReply (x : Client) (r : Result) (d : Word) (s : State) (g : Fin 4) :
    (setReply x r d s).group g = s.group g := rfl

theorem link_setReply_ne {x y : Client} (h : x ≠ y) (r : Result) (d : Word) (s : State) :
    (setReply x r d s).link y = s.link y := by
  simp [setReply, link_updLink_ne h]

@[simp] theorem queue_setReply (x y : Client) (r : Result) (d : Word) (s : State) :
    ((setReply x r d s).link y).queue = (s.link y).queue := by
  by_cases h : x = y
  · subst h; simp [setReply]
  · rw [link_setReply_ne h]

theorem reply_setReply (x : Client) (r : Result) (d : Word) (s : State) :
    ((setReply x r d s).link x).reply = ⟨some (s.statusByte x), r, d⟩ := by
  simp [setReply]

theorem replies_setReply (x : Client) (r : Result) (d : Word) (s : State) :
    Replies x r d (setReply x r d s) := by
  simp [Replies, reply_setReply]

/-! ## Drives, slots and the queue (R81, R82, R105, R112) -/

/-- R82: turning a drive off changes channel `c` alone, and leaves its motion, order and slot. -/
theorem driveOff_spec (c : Chan) (s : State) :
    OnlyChannel c s (driveOff c s) ∧ driveOff c s = { s with chans := (driveOff c s).chans } ∧
    (driveOff c s).ch c =
      if s.driveIsOn c then
        { s.ch c with
          hif := { (s.ch c).hif with drift := 0 }
          moc := { (s.ch c).moc with
            stall := none
            brakeRunning := true
            brakeExpiry := s.clock.now + 10000 * (s.ch c).cal.brake } }
      else s.ch c := by
  unfold driveOff
  by_cases h : s.driveIsOn c = true
  · refine ⟨?_, ?_, ?_⟩
    · simp only [h, if_true]
      exact (onlyChannel_updChan c _ s).trans (onlyChannel_updChan c _ _)
    · simp only [h, if_true]; rfl
    · simp [h]
  · simp [h, OnlyChannel]

@[simp] theorem driveOff_agenda (c : Chan) (s : State) : (driveOff c s).agenda = s.agenda := by
  rw [(driveOff_spec c s).2.1]
@[simp] theorem driveOff_startQueue (c : Chan) (s : State) : (driveOff c s).startQueue = s.startQueue := by
  rw [(driveOff_spec c s).2.1]
@[simp] theorem link_driveOff (c : Chan) (s : State) (x : Client) : (driveOff c s).link x = s.link x := by
  rw [(driveOff_spec c s).2.1]; rfl
@[simp] theorem group_driveOff (c : Chan) (s : State) (g : Fin 4) : (driveOff c s).group g = s.group g := by
  rw [(driveOff_spec c s).2.1]; rfl

/-- R112: a release leaves nothing but the slot different, and a grant test to be made. -/
theorem releaseSlot_spec (c : Chan) (s : State) :
    OnlyChannel c s (releaseSlot c s) ∧
    (releaseSlot c s).ch c = { s.ch c with moc := { (s.ch c).moc with slot := false } } ∧
    releaseSlot c s = { s with chans := (releaseSlot c s).chans, agenda := (releaseSlot c s).agenda } ∧
    (releaseSlot c s).agenda = (if s.holdsSlot c then s.agenda ++ [.grantTest] else s.agenda) := by
  unfold releaseSlot
  by_cases h : s.holdsSlot c = true
  · refine ⟨?_, ?_, ?_, ?_⟩ <;> simp only [h, if_true]
    · intro d hd
      rw [ch_push, updMoc_eq, ch_updChan_ne (Ne.symm hd)]
    · simp
    · rfl
    · rfl
  · have h' : (s.ch c).moc.slot = false := by simpa [State.holdsSlot] using h
    refine ⟨?_, ?_, ?_, ?_⟩ <;> simp [h, OnlyChannel]
    rw [← h']

/-- R100, steps 1 to 4: after a channel is stopped it holds no order, no slot, no queue entry, no wait
and no reversal target; if a drive was on the brake timer runs; nothing of another channel changes. -/
theorem stopChannel_spec (c : Chan) (m : Motion) (s : State) :
    OnlyChannel c s (stopChannel c m s) ∧
    stopChannel c m s = { s with
      chans := (stopChannel c m s).chans
      startQueue := s.startQueue.filter (· ≠ c)
      agenda := (stopChannel c m s).agenda } ∧
    ((stopChannel c m s).ch c).moc = { (((driveOff c s).ch c)).moc with
      slot := false, motion := m, order := none, wait := none, revTarget := none } ∧
    ((stopChannel c m s).ch c).hold = .none ∧
    ((stopChannel c m s).ch c).cal = (s.ch c).cal ∧ ((stopChannel c m s).ch c).auth = (s.ch c).auth ∧
    ((stopChannel c m s).ch c).ctx = (s.ch c).ctx ∧ ((stopChannel c m s).ch c).level = (s.ch c).level ∧
    ((stopChannel c m s).ch c).learning = (s.ch c).learning ∧
    ((stopChannel c m s).ch c).hif = ((driveOff c s).ch c).hif ∧
    ((stopChannel c m s).ch c).hif.pos = (s.ch c).hif.pos := by
  have hd := driveOff_spec c s
  have hr := releaseSlot_spec c (driveOff c s)
  have hch : (stopChannel c m s).ch c = { (driveOff c s).ch c with
      hold := .none
      moc := { ((driveOff c s).ch c).moc with
        slot := false, motion := m, order := none, wait := none, revTarget := none } } := by
    unfold stopChannel
    simp [hr.2.1]
  refine ⟨?_, ?_, ?_⟩
  · refine OnlyChannel.trans hd.1 (OnlyChannel.trans hr.1 ?_)
    exact OnlyChannel.trans (t := leaveQueue c (releaseSlot c (driveOff c s))) (fun d _ => rfl)
      (OnlyChannel.trans (onlyChannel_updChan c _ _) (onlyChannel_updChan c _ _))
  · have e : stopChannel c m s = { releaseSlot c (driveOff c s) with
        chans := (stopChannel c m s).chans
        startQueue := (releaseSlot c (driveOff c s)).startQueue.filter (· ≠ c) } := rfl
    have hq : (releaseSlot c (driveOff c s)).startQueue = s.startQueue := by
      rw [hr.2.2.1]; exact driveOff_startQueue c s
    have ea : (stopChannel c m s).agenda = (releaseSlot c (driveOff c s)).agenda := rfl
    rw [hq] at e
    rw [ea]
    generalize (stopChannel c m s).chans = k at e ⊢
    rw [e]
    generalize (releaseSlot c (driveOff c s)).agenda = a at *
    rw [hr.2.2.1, hd.2.1]
  · rw [hch]
    refine ⟨rfl, rfl, ?_⟩
    by_cases h : s.driveIsOn c = true <;> simp [hd.2.2, h]

/-! ## The level (R155) -/

/-- R155: setting the level changes the level of `c` and, when it changes, posts LEVEL_CHANGED. -/
theorem setLevel_spec (c : Chan) (l : Level) (pos : Int) (s : State) :
    (setLevel c l pos s).ch c = { s.ch c with level := l } ∧ OnlyChannel c s (setLevel c l pos s) ∧
    SameDevice s (setLevel c l pos s) ∧ (setLevel c l pos s).agenda = s.agenda ∧
    (setLevel c l pos s).startQueue = s.startQueue := by
  unfold setLevel
  by_cases h : (s.ch c).level = l
  · subst h
    simp [OnlyChannel, SameDevice.refl]
  · simp only [h, if_false, postAt]
    refine ⟨by simp, ?_, ?_, by simp, by simp⟩
    · exact (onlyChannel_updChan c _ s).trans ((onlyLinks_post ..).onlyChannel c)
    · exact (sameDevice_updChan c _ s).trans (onlyLinks_post ..).sameDevice

/-- Blanking twice is blanking once: R44's condition does not look at the blank count. -/
@[simp] theorem Channel.blanked_blanked (k : Channel) : k.blanked.blanked = k.blanked := by
  unfold Channel.blanked
  split <;> simp_all

/-- R44: "in a closing run at that moment and past its run-up". -/
theorem pastRunUp_iff (s : State) (j : Chan) : s.pastRunUp j = true ↔
    (s.ch j).ctx.runDir = some .closing ∧ (s.ch j).moc.motion = .closing ∧
      (s.ch j).cal.nr ≤ (s.ch j).ctx.runUp := by
  simp [State.pastRunUp, and_assoc]

/-- R44: blanking the neighbour `j` of `c`. -/
theorem blankOne_ch (c j d : Chan) (s : State) :
    (blankOne c s j).ch d = if d = j ∧ d ≠ c then (s.ch d).blanked else s.ch d := by
  have hlde : ∀ (u : State) (l : Lde), ({ u with lde := l } : State).ch d = u.ch d := fun _ _ => rfl
  have key : (blankOne c s j).ch d = if j ≠ c ∧ s.pastRunUp j = true then
      (updCtx j (fun k => { k with blank := (s.ch j).cal.bn }) s).ch d else s.ch d := by
    unfold blankOne
    split
    · simp only []
      split
      · split
        · rw [hlde]
        · rfl
      · rfl
    · rfl
  rw [key]
  by_cases h : d = j
  · subst h
    rw [ch_updCtx_self]
    have hp := pastRunUp_iff s d
    unfold Channel.blanked
    by_cases hc : d = c
    · simp [hc]
    · by_cases h : s.pastRunUp d = true
      · rw [if_pos ⟨hc, h⟩, if_pos ⟨rfl, hc⟩, if_pos (hp.1 h)]
      · rw [if_neg (fun k => h k.2), if_pos ⟨rfl, hc⟩, if_neg (fun k => h (hp.2 k))]
  · rw [updCtx_eq, ch_updChan_ne (Ne.symm h)]
    simp [h]

/-- R12: a capture appends the record, a full FIFO having lost its head, and then sets the gap mark. -/
theorem Hif.capture_eq (k : Capture) (h : Hif) :
    h.capture k = { h with fifo := captured k h.fifo, gap := h.gap || decide (2 ≤ h.fifo.length) } := by
  unfold Hif.capture captured
  split <;> simp_all

/-! ## Events of one moment (log entry 5) -/

/-- The free order only rearranges the events. -/
theorem anyOrder_perm (n f : Nat) (l : List Instr) (h : l.length ≤ n) : (anyOrder n f l).Perm l := by
  induction n generalizing f l with
  | zero => simp [anyOrder]
  | succ n ih =>
    match l, h with
    | [], _ => simp [anyOrder]
    | [i], _ => simp [anyOrder]
    | i :: j :: rest, h =>
      have hk : Config.tieBreak f % (i :: j :: rest).length < (i :: j :: rest).length :=
        Nat.mod_lt _ (by simp)
      simp only [anyOrder]
      rw [List.getElem?_eq_getElem hk]
      refine ((ih _ _ ?_).cons _).trans (List.getElem_cons_eraseIdx_perm hk)
      rw [List.length_eraseIdx_of_lt hk]
      simp only [List.length_cons] at h ⊢
      omega

/-- The events of one moment join the tail of the waiting commands, in some order. -/
theorem pending_enqueue (l : List Instr) (s : State) :
    ∃ m, m.Perm l ∧ (enqueue l s).pending = s.pending ++ m :=
  ⟨anyOrder l.length s.fresh l, anyOrder_perm _ _ _ (Nat.le_refl _), rfl⟩

/-! ## Other small operations -/

@[simp] theorem afterInternal_state (c : Chan) (s : State) : (afterInternal c s).2 = s := rfl

@[simp] theorem keepStatus_result (l : Link) : l.keepStatus.result = l.reply.result := rfl

@[simp] theorem keepStatus_data (l : Link) : l.keepStatus.data = l.reply.data := rfl

/-- R15, R62: the Hall state of a channel whose populated flag changed or that was restarted (R17). -/
theorem Hif.restart_eq (h : Hif) : ({ h with pos := 0, posValid := false } : Hif).restart =
    ⟨none, none, 0, 0, false, [], false, 0, 0, 0⟩ := rfl

/-- R145: G and Q without a companion form no link. -/
theorem companionLink_of_none {r : CalRecord} (h : r.companion = none) : r.companionLink = none := by
  simp [CalRecord.companionLink, h]

/-! ## The wires of a link (R170) -/

@[simp] theorem updLink_id (x : Client) (s : State) : updLink x (fun l => l) s = s := by
  simp [updLink]

theorem updLink_updLink (x : Client) (f g : Link → Link) (s : State) :
    updLink x f (updLink x g s) = updLink x (fun l => f (g l)) s := by
  simp [updLink]

/-- R170: while select is high a clock does nothing. -/
theorem clockLink_of_high {x : Client} {s : State} (h : (s.link x).shifter.selected = false) (b : Bool) :
    clockLink x b s = s := by
  have e : (s.links[x]).clock b = s.links[x] := if_neg (fun k => Bool.false_ne_true (h.symm.trans k))
  simp only [clockLink, updLink, e]
  exact updLink_id x s

/-- A shift register: the bits of a list, the last of them lowest. -/
theorem getLsbD_shifted (bits : List Bool) (v : BitVec 40) (k : Nat) (hk : k < 40) :
    (bits.foldl shiftBit v).getLsbD k =
      if k < bits.length then bits[bits.length - 1 - k]?.getD false else v.getLsbD (k - bits.length) := by
  induction bits generalizing v with
  | nil => simp
  | cons b rest ih =>
    rw [List.foldl_cons, ih]
    rcases Nat.lt_trichotomy k rest.length with h | h | h
    · have e : (b :: rest).length - 1 - k = (rest.length - 1 - k) + 1 := by simp; omega
      rw [if_pos h, if_pos (by simp; omega), e, List.getElem?_cons_succ]
    · subst h
      cases b <;> simp [shiftBit, bit]
    · rw [if_neg (by omega), if_neg (by simp; omega)]
      have e : k - rest.length = (k - (rest.length + 1)) + 1 := by omega
      cases b <;> simp [shiftBit, bit, e] <;> omega

/-- R170: what the clocks of a span do to its link. -/
theorem link_clock_foldl (bits : List Bool) (l : Link) (h : l.shifter.selected = true) (hc : l.shifter.clocks ≤ 41) :
    bits.foldl (fun l b => l.clock b) l = { l with
      reply := if bits = [] ∨ l.shifter.clocks ≠ 0 then l.reply else l.keepStatus
      shifter := { l.shifter with
        clocks := min 41 (l.shifter.clocks + bits.length)
        shiftIn := bits.foldl shiftBit l.shifter.shiftIn } } := by
  induction bits generalizing l with
  | nil => simp [Nat.min_eq_right hc]
  | cons b rest ih =>
    rw [List.foldl_cons, ih (l.clock b) (by simp [Link.clock, h]) (by simp only [Link.clock, h, if_true]; omega)]
    have e : min 41 (min 41 (l.shifter.clocks + 1) + rest.length) = min 41 (l.shifter.clocks + (rest.length + 1)) := by omega
    by_cases h0 : l.shifter.clocks = 0
    · have e : min 41 (1 + rest.length) = min 41 (rest.length + 1) := by omega
      simp [Link.clock, h, h0, e]
    · have h1 : min 41 (l.shifter.clocks + 1) ≠ 0 := by omega
      simp [Link.clock, h, h0, e]

/-- R170: the rise that ends a span, and the command that joins those that wait. -/
theorem selectRises_of_low {x : Client} {s : State} (h : (s.link x).shifter.selected = true) :
    selectRises x s = { updLink x (fun l => { l with
        shifter := { l.shifter with selected := false, lastRise := some s.clock.now } }) s with
      pending := s.pending ++ ((s.link x).shifter.frame x).toList } := if_pos h

/-- R170: the clocks of a span touch its link alone. -/
theorem clockLink_foldl (x : Client) (bits : List Bool) (s : State) :
    bits.foldl (fun u b => clockLink x b u) s = updLink x (fun l => bits.foldl (fun l b => l.clock b) l) s := by
  induction bits generalizing s with
  | nil => simp
  | cons b rest ih => rw [List.foldl_cons, ih, clockLink, updLink_updLink]; rfl
/-! ## What is due, and the group table -/

theorem mem_dueCommand {i j : Instr} {b : Bool} : i ∈ dueCommand b j ↔ b = true ∧ i = j := by
  cases b <;> simp [dueCommand]

/-- R30: there is a channel to serve when a FIFO holds a record. -/
theorem isSome_nextServed (s : State) : s.nextServed.isSome = true ↔ ∃ c, (s.ch c).hif.fifo ≠ [] := by
  have hall : ∀ last c : Chan, c ∈ searchOrder last := by decide
  simp only [State.nextServed, List.find?_isSome, Bool.not_eq_true', List.isEmpty_eq_false_iff]
  exact ⟨fun ⟨c, _, h⟩ => ⟨c, h⟩, fun ⟨c, h⟩ => ⟨c, hall _ c, h⟩⟩

/-- R30: a take is due when LDE is free or completes now, and a FIFO holds a record. -/
theorem takeDue_iff (s : State) :
    s.takeDue = true ↔ (s.lde.busy = none ∨ s.completionDue = true) ∧ ∃ c, (s.ch c).hif.fifo ≠ [] := by
  simp only [State.takeDue, Bool.and_eq_true, Bool.or_eq_true, Option.isNone_iff_eq_none, isSome_nextServed]

/-- R137: the free entry with the lowest index. -/
theorem freeEntry_eq_some {s : State} {g : Fin 4} (hg : s.group g = none) (hl : ∀ h, h < g → s.group h ≠ none) :
    s.freeEntry = some g := by
  have hs : ∀ h : Fin 4, h < g → (s.group h).isNone = false := fun h hh => by
    cases e : s.group h with
    | none => exact absurd e (hl h hh)
    | some _ => rfl
  match g, hg, hs with
  | 0, hg, _ => simp [State.freeEntry, hg]
  | 1, hg, hs => simp [State.freeEntry, hs 0 (by decide), hg]
  | 2, hg, hs => simp [State.freeEntry, hs 0 (by decide), hs 1 (by decide), hg]
  | 3, hg, hs => simp [State.freeEntry, hs 0 (by decide), hs 1 (by decide), hs 2 (by decide), hg]

theorem freeEntry_eq_none {s : State} (h : ∀ g, s.group g ≠ none) : s.freeEntry = none := by
  simp [State.freeEntry, h]

end Sys2Proof.Machine
end

