-- ==== Sys2Proof/Laws/Motion.lean ====
section
/-! SUPPORT. What turning a drive on, joining the start queue, the reports to GRP and NRM, and the end
of an order can do, said once. -/

namespace Sys2Proof.Machine

/-! ## What is only left for later -/

/-- Telling the companion link of something leaves it to be done, and changes nothing now. -/
theorem notifyFollower_eq (p : Chan) (s : State) :
    notifyFollower p s = { s with agenda := (notifyFollower p s).agenda } := by
  unfold notifyFollower
  split <;> rfl

theorem noteEnd_eq (c : Chan) (own : Option Chan) (ok : Bool) (s : State) :
    noteEnd c own ok s = { s with agenda := (noteEnd c own ok s).agenda } := by
  unfold noteEnd
  generalize hu : push (.orderEnded c (s.waitersOn c) own ok) s = u
  rw [notifyFollower_eq c u]
  subst hu
  rfl

theorem noteMoved_eq (c : Chan) (s : State) :
    noteMoved c s = { s with agenda := (noteMoved c s).agenda } := rfl

@[simp] theorem ch_notifyFollower (p : Chan) (s : State) (c : Chan) :
    (notifyFollower p s).ch c = s.ch c := by rw [notifyFollower_eq]; rfl
@[simp] theorem ch_noteEnd (d : Chan) (own : Option Chan) (ok : Bool) (s : State) (c : Chan) :
    (noteEnd d own ok s).ch c = s.ch c := by rw [noteEnd_eq]; rfl
@[simp] theorem ch_noteMoved (d : Chan) (s : State) (c : Chan) : (noteMoved d s).ch c = s.ch c := rfl

theorem sameDevice_noteEnd (d : Chan) (own : Option Chan) (ok : Bool) (s : State) :
    SameDevice s (noteEnd d own ok s) := by rw [noteEnd_eq]; simp [SameDevice]

@[simp] theorem noteEnd_startQueue (d : Chan) (own : Option Chan) (ok : Bool) (s : State) :
    (noteEnd d own ok s).startQueue = s.startQueue := by rw [noteEnd_eq]

/-- R8: a set-position writes the counter and the validity flag of `c`; the rest is left for later. -/
theorem setPosition_spec (c : Chan) (x : Int) (valid : Bool) (s : State) :
    (setPosition c x valid s).ch c =
      { s.ch c with hif := { (s.ch c).hif with pos := x, posValid := valid } } ∧
    OnlyChannel c s (setPosition c x valid s) ∧ SameDevice s (setPosition c x valid s) ∧
    (setPosition c x valid s).startQueue = s.startQueue := by
  unfold setPosition
  refine ⟨by simp, ?_, ?_, ?_⟩
  · intro d hd
    rw [ch_notifyFollower, updHif_eq, ch_updChan_ne (Ne.symm hd)]
  · rw [notifyFollower_eq]; simp [SameDevice, updHif_eq]
  · rw [notifyFollower_eq]; rfl

/-! ## A drive turns on (R81, R14, R29, R44, R51, R111) -/

/-- R31: overtaking a take changes LDE alone. -/
theorem dropTake_eq (c : Chan) (s : State) : dropTake c s = { s with lde := (dropTake c s).lde } := by
  unfold dropTake
  split
  · split <;> rfl
  · rfl

/-- R44: blanking changes the load contexts and the take in progress alone. -/
theorem blankOne_eq (c : Chan) (s : State) (j : Chan) :
    blankOne c s j = { s with chans := (blankOne c s j).chans, lde := (blankOne c s j).lde } := by
  unfold blankOne
  split
  · simp only []
    split
    · split <;> rfl
    · rfl
  · rfl

/-- R44: blanking along a list of channels. -/
theorem ch_foldl_blankOne (c d : Chan) (l : List Chan) (s : State) :
    (l.foldl (blankOne c) s).ch d = if d ∈ l ∧ d ≠ c then (s.ch d).blanked else s.ch d := by
  induction l generalizing s with
  | nil => simp
  | cons j l ih =>
    rw [List.foldl_cons, ih, blankOne_ch]
    by_cases hc : d = c
    · simp [hc]
    · by_cases hj : d = j <;> by_cases hl : d ∈ l <;> simp_all

/-- R44: neighbour blanking: every channel but `c` is as `Channel.blanked` says. -/
theorem blankNeighbours_spec (c : Chan) (s : State) :
    blankNeighbours c s =
      { s with chans := (blankNeighbours c s).chans, lde := (blankNeighbours c s).lde } ∧
    (blankNeighbours c s).ch c = s.ch c ∧ NeighboursBlanked c s (blankNeighbours c s) := by
  refine ⟨?_, ?_, fun d hd => ?_⟩
  · unfold blankNeighbours
    generalize allChans = l
    induction l generalizing s with
    | nil => rfl
    | cons j l ih =>
      rw [List.foldl_cons]
      have h1 := ih (blankOne c s j)
      generalize l.foldl (blankOne c) (blankOne c s j) = u at h1 ⊢
      rw [h1, blankOne_eq]
  · simp [blankNeighbours, ch_foldl_blankOne]
  · have hm : ∀ e : Chan, e ∈ allChans := by decide
    simp [blankNeighbours, ch_foldl_blankOne, hd, hm]

/-- Nothing but what the blocks hold per channel and the take in progress changed. -/
def OnlyRun (s t : State) : Prop := t = { s with chans := t.chans, lde := t.lde }

theorem OnlyRun.trans {s t u : State} (h : OnlyRun s t) (k : OnlyRun t u) : OnlyRun s u := by
  unfold OnlyRun at *
  rw [k, h]

theorem onlyRun_updChan (c : Chan) (f : Channel → Channel) (s : State) : OnlyRun s (updChan c f s) := rfl

theorem onlyRun_dropTake (c : Chan) (s : State) : OnlyRun s (dropTake c s) := by
  unfold OnlyRun dropTake
  split
  · split <;> rfl
  · rfl

@[simp] theorem ch_dropTake (c : Chan) (s : State) (d : Chan) : (dropTake c s).ch d = s.ch d := by
  rw [dropTake_eq]; rfl

@[simp] theorem ch_withSpacing (s : State) (x : Spacing) (c : Chan) :
    ({ s with spacing := x } : State).ch c = s.ch c := rfl

/-- R81: what a drive-on does: the channel it turns on, the other channels as R44 says, the
spacing timer; nothing else but the take in progress. -/
theorem driveOn_spec (c : Chan) (m : Motion) (d : Dir) (s : State) :
    driveOn c m d s = { s with
      chans := (driveOn c m d s).chans
      lde := (driveOn c m d s).lde
      spacing := .armed s.clock.now false } ∧
    (driveOn c m d s).ch c = { s.ch c with
      hif := (s.ch c).hif.clearRun
      ctx := (s.ch c).ctx.startRun d
      moc := { (s.ch c).moc with motion := m, stall := some (s.clock.now + 150000), steps := 0 } } ∧
    NeighboursBlanked c s (driveOn c m d s) := by
  obtain ⟨v, hv⟩ : ∃ v, v = dropTake c (updCtx c (LoadContext.startRun d) (updHif c Hif.clearRun s)) :=
    ⟨_, rfl⟩
  obtain ⟨w, hw⟩ : ∃ w, w = updMoc c (fun k => { k with
      motion := m
      stall := some (s.clock.now + 150000)
      steps := 0 }) (blankNeighbours c v) := ⟨_, rfl⟩
  have key : driveOn c m d s = { w with spacing := .armed w.clock.now false } := by
    rw [hw, hv]; rfl
  obtain ⟨b1, b2, b3⟩ := blankNeighbours_spec c v
  have rv : OnlyRun s v := by
    rw [hv]
    exact (onlyRun_updChan c _ s).trans ((onlyRun_updChan c _ _).trans (onlyRun_dropTake c _))
  have rw' : OnlyRun s w := by
    rw [hw]
    exact rv.trans (OnlyRun.trans (t := blankNeighbours c v) b1 (onlyRun_updChan c _ _))
  have hwn : w.clock = s.clock := by rw [rw']
  rw [key]
  refine ⟨?_, ?_, fun e he => ?_⟩
  · rw [hwn]
    generalize w.chans = k, w.lde = l at rw' ⊢
    unfold OnlyRun at rw'
    rw [rw']
  · rw [ch_withSpacing, hw, ch_updMoc_self, b2, hv, ch_dropTake, ch_updCtx_self, ch_updHif_self]
  · have e2 : v.ch e = s.ch e := by
      rw [hv, ch_dropTake, updCtx_eq, ch_updChan_ne (Ne.symm he), updHif_eq, ch_updChan_ne (Ne.symm he)]
    rw [ch_withSpacing, hw, updMoc_eq, ch_updChan_ne (Ne.symm he), b3 e he, e2]

/-! ## The start queue (R105, R106) -/

/-- R105, R106: `c` becomes QUEUED and joins the queue; the other entries keep their order. -/
theorem joinStartQueue_spec (c : Chan) (s : State) :
    (joinStartQueue c s).ch c = { s.ch c with moc := { (s.ch c).moc with motion := .queued } } ∧
    OnlyChannel c s (joinStartQueue c s) ∧ SameDevice s (joinStartQueue c s) ∧
    (joinStartQueue c s).agenda = s.agenda ++ [.grantTest] ∧
    (joinStartQueue c s).links = s.links ∧ (joinStartQueue c s).groups = s.groups ∧
    (∀ d, d ∈ (joinStartQueue c s).startQueue ↔ d = c ∨ d ∈ s.startQueue) ∧
    (s.startQueue.Nodup → (joinStartQueue c s).startQueue.Nodup) := by
  have hq : (joinStartQueue c s).startQueue =
      if s.opens c then (s.startQueue.filter (· ≠ c)).takeWhile s.opens ++ [c] ++
        (s.startQueue.filter (· ≠ c)).dropWhile s.opens
      else s.startQueue.filter (· ≠ c) ++ [c] := rfl
  have hp : (joinStartQueue c s).startQueue.Perm (c :: s.startQueue.filter (· ≠ c)) := by
    rw [hq]
    split
    · rw [List.append_assoc]
      refine (List.perm_middle (a := c)).trans ?_
      show (c :: (_ ++ List.dropWhile _ _)).Perm _
      rw [List.takeWhile_append_dropWhile]
    · exact List.perm_append_singleton _ _
  refine ⟨?_, ?_, ?_, rfl, rfl, rfl, fun d => ?_, fun hn => ?_⟩
  · unfold joinStartQueue
    simp only [ch_push, ch_updMoc_self]; rfl
  · intro d hd
    unfold joinStartQueue
    simp only [ch_push, updMoc_eq, ch_updChan_ne (Ne.symm hd)]; rfl
  · simp [SameDevice, joinStartQueue, push, updMoc_eq]
  · rw [hp.mem_iff]
    by_cases h : d = c <;> simp [h]
  · rw [hp.nodup_iff, List.nodup_cons]
    exact ⟨by simp, hn.filter _⟩

/-! ## Reports (R140, R141, R167) -/

/-- R140, R141: a report of an end to GRP changes the group table and, at a completion, the links. -/
theorem finishGroup_eq (g : Fin 4) (s : State) :
    finishGroup g s = { s with links := (finishGroup g s).links, groups := (finishGroup g s).groups } := by
  unfold finishGroup
  split
  · split
    · next e _ _ =>
      have h := onlyLinks_post .groupDone none (maskWord e.missed) (bytesWord g.val e.serial) s
      generalize post .groupDone none (maskWord e.missed) (bytesWord g.val e.serial) s = u at h
      rw [h]; rfl
    · rfl
  · rfl

theorem recordMember_eq (g : Fin 4) (c : Chan) (o : MemberOutcome) (s : State) :
    recordMember g c o s =
      { s with links := (recordMember g c o s).links, groups := (recordMember g c o s).groups } := by
  unfold recordMember
  split
  · split
    · next e _ _ =>
      generalize hu : setGroup g (some { e with members := e.members.set c (some o) }) s = u
      rw [finishGroup_eq g u]
      subst hu
      rfl
    · rfl
  · rfl

theorem reportGroup_eq (c : Chan) (o : Order) (e : OrderEnd) (s : State) :
    reportGroup c o e s =
      { s with links := (reportGroup c o e s).links, groups := (reportGroup c o e s).groups } := by
  unfold reportGroup
  split
  · split
    · split
      · rfl
      · exact recordMember_eq ..
    · rfl
  · rfl

theorem reportGroupReversal_eq (c : Chan) (e : RevEnd) (s : State) :
    reportGroupReversal c e s = { s with
      links := (reportGroupReversal c e s).links
      groups := (reportGroupReversal c e s).groups } := by
  unfold reportGroupReversal
  generalize ([0, 1, 2, 3] : List (Fin 4)) = l
  induction l generalizing s with
  | nil => rfl
  | cons g l ih =>
    rw [List.foldl_cons]
    have h := ih (recordMember g c (memberRevEnd e) s)
    generalize l.foldl (fun s g => recordMember g c (memberRevEnd e) s)
      (recordMember g c (memberRevEnd e) s) = u at h ⊢
    rw [h, recordMember_eq]

@[simp] theorem ch_reportGroup (c : Chan) (o : Order) (e : OrderEnd) (s : State) (d : Chan) :
    (reportGroup c o e s).ch d = s.ch d := by rw [reportGroup_eq]; rfl

theorem sameDevice_reportGroup (c : Chan) (o : Order) (e : OrderEnd) (s : State) :
    SameDevice s (reportGroup c o e s) := by rw [reportGroup_eq]; simp [SameDevice]

@[simp] theorem reportGroup_startQueue (c : Chan) (o : Order) (e : OrderEnd) (s : State) :
    (reportGroup c o e s).startQueue = s.startQueue := by rw [reportGroup_eq]

/-- An order of a client is no member's: GRP hears nothing of its end. -/
theorem reportGroup_of_client {o : Order} (h : o.mover = .client) (c : Chan) (e : OrderEnd) (s : State) :
    reportGroup c o e s = s := by simp [reportGroup, h]

/-- An order of another mover than LEARN ends no learning run. -/
theorem reportLearning_of_not_learn {o : Order} (h : o.mover ≠ .learn) (c : Chan) (e : OrderEnd)
    (pos : Int) (s : State) : reportLearning c o e pos s = s := by
  unfold reportLearning
  split
  · next hm _ => exact absurd hm h
  · rfl

/-! ## The end of an order (R100) -/

/-- R100: what the end of an order that no learning run owns does to its channel, and that it does
nothing to another one. -/
theorem endOrder_spec {c : Chan} {e : OrderEnd} {s : State} {o : Order} (ho : (s.ch c).moc.order = some o)
    (hm : o.mover ≠ .learn) :
    (endOrder c e s).ch c = (stopChannel c .idle s).ch c ∧ OnlyChannel c s (endOrder c e s) ∧
    SameDevice s (endOrder c e s) ∧
    (endOrder c e s).startQueue = s.startQueue.filter (· ≠ c) := by
  obtain ⟨h1, h2, -⟩ := stopChannel_spec c .idle s
  have hs : SameDevice s (stopChannel c .idle s) := by rw [h2]; simp [SameDevice]
  have he : endOrder c e s =
      reportGroup c o e (postAt .moveEnded c
        ((noteEnd c o.ownOpen (e = .target || e = .openEnd) (stopChannel c .idle s)).ch c).hif.pos
        (natWord (orderEndCode e))
        (noteEnd c o.ownOpen (e = .target || e = .openEnd) (stopChannel c .idle s))) := by
    simp [endOrder, endOrderWith, ho, reportLearning_of_not_learn hm]
  rw [he]
  refine ⟨by simp [postAt], fun d hd => ?_, ?_, ?_⟩
  · rw [ch_reportGroup, postAt, ch_post, ch_noteEnd]
    exact h1 d hd
  · exact hs.trans ((sameDevice_noteEnd ..).trans
      ((onlyLinks_post ..).sameDevice.trans (sameDevice_reportGroup ..)))
  · rw [reportGroup_startQueue, postAt, post_startQueue, noteEnd_startQueue, h2]

end Sys2Proof.Machine
end

