-- ==== Sys2Proof/Tests/Slice0.lean ====
section
/-! SUPPORT. The model's own tests: ill-formed terms that the check refuses, frames written out from
the manual's encodings, the manual's worked numbers, one step of each family, and for each statement
with hypotheses a state and operands that meet them all. Channel 1 is the channel in question unless a
test says another; `ok…` names a witness of hypotheses. -/

namespace Sys2Proof.Tests

open Sys2Proof Sys2Proof.Machine

/-! ## Which terms are commands -/

theorem test_supply_reading_above_range_is_refused : (Instr.supplySample 2048).wellFormed = false := by decide
theorem test_supply_reading_at_range_is_taken : (Instr.supplySample 2047).wellFormed = true := by decide
theorem test_assigned_code_is_refused : (Instr.undefinedRequestCode 0 0x01).wellFormed = false := by decide
theorem test_learn_reference_as_open_end_is_refused : (Instr.learnOpenEnd 0 1 1 0).wellFormed = false := by decide
theorem test_forget_as_open_end_is_refused : (Instr.learnOpenEnd 0 1 2 0).wellFormed = false := by decide

/-! ## Frames, written out from R171, R175 and section 10.5 -/

/-- Section 10.5, frame 1: 01h, 22h, FFh, FFh, DFh. -/
theorem test_frame_of_auto_close : decodeFrame 1 0x0122FFFFDF = .move 1 2 2 0xFFFF := by decide
/-- Section 10.5, frame 2: five bytes 00h. -/
theorem test_frame_of_nop : decodeFrame 1 0x0000000000 = .nop 1 0 0 0 := by decide
/-- 10h, F2h, 00h, FFh, and 100h − 201h mod 256 = FFh. -/
theorem test_frame_of_group_move : decodeFrame 2 0x10F200FFFF = .groupMove 2 15 2 0x00FF := by decide
/-- 30h, 51h, 00h, 00h, 7Fh: modifier 1 of LEARN is REFERENCE. -/
theorem test_frame_of_learn_reference : decodeFrame 3 0x305100007F = .learnReference 3 5 0 := by decide
/-- 30h, 52h, 00h, 00h, 7Eh: modifier 2 of LEARN is FORGET. -/
theorem test_frame_of_forget : decodeFrame 3 0x305200007E = .forget 3 5 0 := by decide
/-- 20h, 30h, 00h, 00h, B0h: READ PANEL, channel 3, selector 0. -/
theorem test_frame_of_read_panel : decodeFrame 0 0x20300000B0 = .readPanel 0 3 0 0 := by decide
/-- 3Ah, 12h, 02h, 58h, 5Ah: ZONE PUT FIELD, channel 1, field 2 (E), 0258h = 600. -/
theorem test_frame_of_zone_put_field : decodeFrame 0 0x3A1202585A = .zonePutField 0 1 2 600 := by decide
/-- 40h, F0h, 00h, 00h, D0h: STORE of the global record. -/
theorem test_frame_of_store : decodeFrame 0 0x40F00000D0 = .store 0 15 0 0 := by decide
/-- 05h, F0h, 00h, 06h, 05h: LOCKOUT SET of channels 1 and 2. -/
theorem test_frame_of_lockout_set : decodeFrame 0 0x05F0000605 = .lockoutSet 0 15 0 6 := by decide
/-- 09h is no assigned code. -/
theorem test_frame_of_unassigned_code : decodeFrame 0 0x09000000F7 = .undefinedRequestCode 0 9 := by decide
/-- The first frame with one bit of its third byte corrupted. -/
theorem test_frame_with_bad_sum : decodeFrame 1 0x0122FEFFDF = .frameError 1 := by decide
/-- Section 10.5, frame 2's reply: 80h, 02h, FFh, FFh, 80h. -/
theorem test_reply_frame_of_accepted : replyFrame 0x80 .accepted 0xFFFF = 0x8002FFFF80 := by decide
/-- Section 10.5, frame 1's reply: 80h, 01h, 00h, 00h, 7Fh. -/
theorem test_reply_frame_of_done : replyFrame 0x80 .done 0 = 0x800100007F := by decide

/-! ## The worked numbers of the manual -/

/-- Section 3.9.2: the compensation table. -/
theorem test_compensation : [compensate 1000 1350, compensate 1000 1700, compensate 1000 500,
    compensate 2800 1500, compensate 3500 1200] = [1000, 1185, 593, 3111, 3111] := by decide
/-- Section 3.9.1, first row: load, smoothing and accumulator. -/
theorem test_first_row_of_the_arm : loadFigure 1333 1200 = 113 ∧ smooth 40 113 = 58 ∧ accumulate 100 58 80 = 78 := by
  decide
/-- Section 3.9.1, last row: the jolt limit, and the accumulator above T'. -/
theorem test_last_row_of_the_arm : limitedFigure (loadFigure 2222 1200) 301 256 = 557 ∧ smooth 301 557 = 365 ∧
    accumulate 578 365 80 = 863 := by decide
/-- Section 3.9.1: the decision of the sixth step. -/
theorem test_decision_of_the_arm :
    fullDecision (some ⟨24, .guard, 80, 600, 400⟩) 0 false 365 863 = some ⟨.accumulated, 365⟩ := by decide
/-- Section 3.9.3: the thirteenth step in the default WATCH zone. -/
theorem test_hard_in_watch :
    fullDecision (some ⟨1024, .watch, 160, 1200, 800⟩) 0 false 832 0 = some ⟨.hard, 832⟩ := by decide
/-- R5: 00, 01, 11, 10, 00 is the opening order; both inputs changed is no step. -/
theorem test_step_directions : stepDir 0 1 = some .opening ∧ stepDir 1 0 = some .closing ∧ stepDir 0 3 = none := by
  decide

/-! ## States for the tests -/

/-- A record with Lt = 1000 and a profile of 32 bands of 1000 µs. -/
def learnedCal : CalRecord := { defaultCal with travel := some 1000, profile := some (List.replicate 32 1000) }

/-- A channel at rest at 500, LEARNED, its brake timer expired. -/
def learnedChannel : Channel := { resetChannel with
  level := .learned
  cal := learnedCal
  hif := { resetHif with pos := 500, posValid := true, phase := some 0 }
  moc := { resetMoc with brakeRunning := false } }

/-- READY, 40.001 ms after the release of reset, every channel LEARNED and at rest. -/
def atWork : State := { State.reset with
  ready := true
  calLoaded := true
  clock := ⟨40001, 40001, 40, 1⟩
  stb := ⟨.direct, false, 0⟩
  chans := Vector.replicate 8 learnedChannel }

/-- `atWork` with what the blocks hold for channel 1 changed. -/
def with1 (f : Channel → Channel) : State := updChan 1 f atWork

/-- An order of client 0. -/
def order (d : Dir) (md : Mode) : Order :=
  ⟨d, md, .toEnd, .localReq, .client, 0, .notLearning, 0, if md = .manual then some 40000 else none, 0⟩

/-- Channel 1 driven for `o` at `pos`, its stall timer expiring now. -/
def driving (m : Motion) (o : Order) (pos : Int) : State := with1 fun k => { k with
  hif := { k.hif with pos := pos }
  ctx := { k.ctx with runDir := m.drive }
  moc := { k.moc with motion := m, order := some o, slot := true, stall := some 40001, steps := 1 } }

/-- Channel 1 in its reversal to `target`. -/
def reversingTo (m : Motion) (target : Int) (stall : Option Nat) : State := with1 fun k => { k with
  moc := { k.moc with
    motion := m, slot := true, revTarget := some target, stall := stall
    brakeRunning := m = .brakingPinch, brakeExpiry := 40001 } }

/-- Channel 1 QUEUED with `o` and the spacing timer run out. -/
def queuedWith (o : Order) : State :=
  { (with1 fun k => { k with moc := { k.moc with motion := .queued, order := some o } }) with
    startQueue := [1], spacing := .armed 1 false }

/-- Channel 1 WAITING with `o` on a wait of this kind that expires now. -/
def waitingWith (h : Hold) (o : Order) : State := with1 fun k => { k with
  hold := h
  moc := { k.moc with motion := .waiting, order := some o, wait := some 40001 } }

/-- A record of channel 1 that LDE took: a jammed closing step at 500, H reached. -/
def jam : Take where
  chan := 1
  since := 40000
  record := ⟨9000, 500, .closing, 1350⟩
  gap := false
  blank := 0
  level := .learned
  k := 0
  learnClose := false
  cal := learnedCal
  supply := .normal
  dropped := false
  reblanked := false

/-- A load context of a closing run past its run-up, with S = 400. -/
def nearHard : LoadContext := { resetContext with
  runDir := some .closing, seeded := true, runUp := 24, smoothed := 400, qualified := true }

/-- LDE holds the jammed record of the CLOSING channel 1. -/
def pinching : State :=
  { (updCtx 1 (fun _ => nearHard) (driving .closing (order .closing .auto) 499)) with lde := ⟨1, some jam⟩ }

/-- What a command answers, when it answers a next state. -/
def after (i : Instr) (s : State) : Option State :=
  match exec i s with
  | .next t => some t
  | .fault _ => none
  | .refused _ => none

/-- A field of channel 1 after a command. -/
def then1 {α : Type} (i : Instr) (s : State) (f : Channel → α) : Option α := (after i s).map fun t => f (t.ch 1)

/-- The reply that a command leaves on link 0. -/
def answer (i : Instr) (s : State) : Option (Result × Word) :=
  (after i s).map fun t => ((t.link 0).reply.result, (t.link 0).reply.data)

/-! ## One step of each family -/

/-- R120: the answer of section 10.5's MOVE. -/
theorem test_move_answers_the_end : answer (.move 0 1 2 0xFFFF) atWork = some (.accepted, 0xFFFF) := by decide
/-- R110, R51: granted at once, CLOSING with 150 ms to the stall. -/
theorem test_move_starts_the_drive :
    then1 (.move 0 1 2 0xFFFF) atWork (fun k => (k.moc.motion, k.moc.stall)) = some (.closing, some 190001) := by decide
/-- R82: a halt starts the 30 ms brake interval. -/
theorem test_halt_brakes : then1 (.halt 0 1 0 0) (driving .closing (order .closing .auto) 500)
    (fun k => (k.moc.motion, k.moc.brakeExpiry)) = some (.idle, 70001) := by decide
/-- R92: 500 + 400, at most Lt − Ms = 988, at least F = 600. -/
theorem test_pinch_forms_the_target : then1 .ldeCompletion pinching
    (fun k => (k.moc.motion, k.moc.revTarget, k.moc.latched)) = some (.brakingPinch, some 900, true) := by decide
/-- R87: a stall in the seal ends at position 0. -/
theorem test_stall_in_the_seal : then1 (.stall 1) (driving .closing (order .closing .auto) (-3))
    (fun k => (k.moc.motion, k.hif.pos, k.level)) = some (.idle, 0, .learned) := by decide
/-- R86: a stall in a GUARD zone is a pinch. -/
theorem test_stall_in_guard : then1 (.stall 1) (driving .closing (order .closing .auto) 100)
    (fun k => (k.moc.motion, k.moc.revTarget)) = some (.brakingPinch, some 600) := by decide
/-- R89: at Lt − 24 an opening stall is the open end; below it, an obstruction. -/
theorem test_open_end_bound :
    ((after (.stall 1) (driving .opening (order .opening .auto) 976)).map fun t =>
      ((t.link 2).queue.map Event.kind)) = some [.endReached, .moveEnded] ∧
    ((after (.stall 1) (driving .opening (order .opening .auto) 975)).map fun t =>
      ((t.link 2).queue.map Event.detail)) = some [9] := by decide
/-- R130: the window closes and the levels are cleared. -/
theorem test_window_expiry : then1 (.overrideWindowExpiry 1)
    (with1 fun k => { k with auth := ⟨0, 0, false, 1, 1, some 40001⟩ })
    (fun k => (k.auth.window, k.auth.overrideLevel)) = some (none, 0) := by decide
/-- R188: a STORE is busy for 35 ms. -/
theorem test_store_is_busy : ((after (.store 0 1 0 0) atWork).map fun t => t.nvc.busy.map Busy.done) =
    some (some 75001) := by decide
/-- R16, R186, R22: what the reset leaves. -/
theorem test_reset : ((after (.resetN true) atWork).map fun t => (t.ready, t.sup.state, t.stb.mode)) =
    some (false, .normal, .direct) := by decide
/-- R20: 5.99 V is CRANK, from a settled NORMAL. -/
theorem test_crank_bound :
    ((after (.supplySample 599) { atWork with sup := { resetSupply with settling := 3 } }).map fun t => t.sup.state) =
      some .crank ∧
    ((after (.supplySample 600) { atWork with sup := { resetSupply with settling := 3 } }).map fun t => t.sup.state) =
      some .normal := by decide
/-- R177: the position of channel 1 is 500. -/
theorem test_read_panel : answer (.readPanel 0 1 0 0) atWork = some (.done, 500) := by decide
/-- R117: MANUAL without the right is NOT_PERMITTED. -/
theorem test_move_without_right : answer (.move 0 1 0 0xFFFF)
    { atWork with glob := { defaultGlobal with rights := Vector.replicate 4 ⟨0xFF, 0x1E⟩ } } =
      some (.notPermitted, 0) := by decide
/-- R138, R139: the first group of a device is entry 0 with serial 1. -/
theorem test_group_move : answer (.groupMove 0 15 2 0x0002) atWork = some (.accepted, 0x0001) := by decide

/-- R170, R172: a span without a clock edge is no frame and leaves a reset's reply without its status byte;
the first clock fixes the byte loaded at the fall. -/
theorem test_empty_span_keeps_the_reply :
    ((selectRises 0 (selectFalls 0 State.reset)).link 0).reply.status = none ∧
    ((clockLink 0 true (selectFalls 0 State.reset)).link 0).reply.status = some (State.reset.statusByte 0) := by decide

/-! ## Witnesses: the queue, time, invariants -/

theorem ok_ActionsAreComplete : atWork.agenda = [] ∧ ∃ t, exec .ldeTake atWork = .next t := ⟨by decide, _, rfl⟩
theorem ok_CommandsAnswer : ∀ b, Instr.ldeTake ≠ .resetN b := by decide
/-- Both clauses, at 998 and at 999 microseconds past a millisecond. -/
theorem ok_IdleStep : (atWork.pending = [] ∧ atWork.dueNow = []) ∧
    ({ atWork with clock := ⟨40001, 40001, 40, 998⟩ }.dueNow = [] ∧
      { atWork with clock := ⟨40001, 40001, 40, 999⟩ }.dueNow = []) := by decide
/-- Something due: a stall; and each clause of what is due that has a hypothesis, at its bound. A pair that is
the fourth equal sample, and the microsecond of a supply sample. -/
theorem ok_IdleStep_due : (driving .closing (order .closing .auto) 500).dueNow ≠ [] ∧
    (pinching.lde.busy = some jam ∧ jam.since + 20 ≤ ({ pinching with clock := ⟨40020, 0, 0, 0⟩ } : State).clock.now) ∧
    (State.reset.ready = false ∧ 12000 ≤ ({ State.reset with clock := ⟨12000, 0, 0, 0⟩ } : State).clock.now) ∧
    (({ blankImage with busy := some ⟨.erase, 0, 40001⟩ } : Nvc).busy = some ⟨.erase, 0, 40001⟩ ∧
      40001 ≤ atWork.clock.now ∧ NvJob.storeGlobal defaultGlobal ≠ .erase) ∧
    (filterSample 1 { resetHif with phase := some 0, candidate := some 1, count := 3 }).2 = some 1 ∧
    (40499 + 1) % 500 = 0 := by decide
/-- R30: with the completion due and another record in a FIFO, the take is due too, in either order. -/
theorem ok_IdleStep_take :
    let s := { updHif 1 (fun h => { h with fifo := [jam.record] }) pinching with clock := ⟨40020, 0, 0, 0⟩ }
    s.pending = [] ∧ .ldeCompletion ∈ s.dueNow ∧ .ldeTake ∈ s.dueNow ∧ s.lde.busy ≠ none := by decide
/-- A full queue and a saturated lost counter. -/
theorem ok_LinkBounds : ∃ s t, LinkBounds s ∧ step s = .next t ∧ (s.link 2).queue.length = 16 :=
  ⟨{ atWork with
      links := Vector.replicate 4 { resetLink with
        queue := List.replicate 16 ⟨.drift, some 1, 0, 16, 0⟩, lost := 255 }
      pending := [.stall 1] }, _, by unfold LinkBounds; decide, rfl, by decide⟩
/-- Counters at both ends of their ranges. -/
theorem ok_HallBounds : ∃ s t, HallBounds s ∧ step s = .next t ∧ (s.ch 1).hif.pos = 5119 :=
  ⟨{ (with1 fun k => { k with hif := { k.hif with pos := 5119, quadErrors := 255 } }) with
      pending := [.hallAcceptance 1 1] }, _, by unfold HallBounds; decide, rfl, by decide⟩
theorem ok_LoadBounds : ∃ s t, LoadBounds s ∧ step s = .next t ∧ (s.ch 1).ctx.smoothed = 4095 :=
  ⟨{ updCtx 1 (fun k => { k with smoothed := 4095, excess := 65535 }) pinching with pending := [.ldeCompletion] },
    _, by unfold LoadBounds; decide, rfl, by decide⟩

theorem learnedCal_valid : learnedCal.valid := by
  refine ⟨?_, ?_, by decide, by unfold startsInRange; decide, by decide, by decide, by decide, by decide, by decide, by decide,
    by decide, by decide, by decide, by decide, by decide⟩
  · intro t h; cases h; decide
  · intro p h; cases h; exact ⟨1000, rfl, by decide, by decide⟩

theorem defaultCal_valid : defaultCal.valid := by
  refine ⟨?_, ?_, by decide, by unfold startsInRange; decide, by decide, by decide, by decide, by decide, by decide, by decide,
    by decide, by decide, by decide, by decide, by decide⟩
  · intro t h; cases h
  · intro p h; cases h

theorem atWork_recordsValid : RecordsValid atWork := by
  refine ⟨fun c => ?_, fun c => ?_, by unfold GlobalRecord.valid; decide, by unfold GlobalRecord.valid; decide,
    fun b h => by cases h⟩
  · have h : ∀ c, (atWork.ch c).cal = learnedCal := by decide
    rw [h]; exact learnedCal_valid
  · have h : ∀ c : Chan, atWork.nvc.channels[c].contents = defaultCal := by decide
    rw [h]; exact defaultCal_valid

theorem ok_RecordsStayValid : RecordsValid atWork ∧ StagingBounded atWork ∧ ∃ t, step atWork = .next t :=
  ⟨atWork_recordsValid, by unfold StagingBounded startsInRange; decide, _, rfl⟩

/-- A channel in each of CLOSING, QUEUED and IDLE. -/
theorem ok_MotionTable : (∃ t, step (driving .closing (order .closing .auto) 500) = .next t) ∧
    MotionTable (driving .closing (order .closing .auto) 500) ∧ MotionTable (queuedWith (order .closing .auto)) := by
  refine ⟨⟨_, rfl⟩, ?_, ?_⟩ <;> unfold MotionTable Channel.inTable OpeningFirst <;> decide

/-! ## Witnesses: reset and start-up -/

theorem ok_Reset : atWork.nvc.busy = none ∧
    (∃ job, ({ atWork with nvc := { blankImage with
      busy := some ⟨.storeChannel 1 learnedCal, 0, 35000⟩ } } : State).nvc.busy = some job ∧
        job.job = .storeChannel 1 learnedCal) ∧
    ∃ job, ({ atWork with nvc := { blankImage with
      busy := some ⟨.lockWrite defaultGlobal, 0, 10000⟩ } } : State).nvc.busy = some job ∧
        (job.job = .storeGlobal defaultGlobal ∨ job.job = .lockWrite defaultGlobal) :=
  ⟨rfl, ⟨_, rfl, rfl⟩, ⟨_, rfl, .inr rfl⟩⟩
/-- An erase that the reset cuts off. -/
theorem ok_Reset_erase : ∃ job, ({ atWork with nvc := { blankImage with
    busy := some ⟨.erase, 0, 60000⟩ } } : State).nvc.busy = some job ∧ job.job = .erase := ⟨_, rfl, rfl⟩

/-- A record that is valid, one that is blank by its version, one by its number, one that is corrupt. -/
theorem ok_StartUp : State.reset.ready = false ∧ State.reset.agenda = [] ∧
    (State.reset.link 0).mask.getLsbD 15 = true ∧ (State.reset.nvc.working 1).populated = true ∧
    (({ blankImage with channels := Vector.replicate 8 ⟨2, 1, true, { defaultCal with populated := false }⟩ } :
      Nvc).working 1).populated = false ∧
    (loadChannelRecord 1 ⟨2, 1, true, learnedCal⟩).travel = some 1000 ∧
    (loadChannelRecord 1 ⟨3, 1, true, learnedCal⟩).travel = none ∧
    (loadChannelRecord 1 ⟨2, 0, true, learnedCal⟩).travel = none ∧
    (loadChannelRecord 1 ⟨2, 1, false, learnedCal⟩).unsaved = true := by decide

/-- An image of valid records in which channel 0 names channel 1, whose record is `r`. -/
def linked (r : CalRecord) : Nvc := { blankImage with channels := Vector.ofFn fun c =>
  ⟨2, c.val, true, if c = 0 then { defaultCal with companion := some 1 } else if c = 1 then r else defaultCal⟩ }
/-- R186: a link that stands, one to an unpopulated channel, one to a leader. -/
theorem ok_StartUp_links : (loadChannelRecord 0 (linked defaultCal).channels[0]).companion = some 1 ∧
    (loadChannelRecord 1 (linked defaultCal).channels[1]).populated = true ∧
    ((linked defaultCal).working 0).companion = some 1 ∧
    (loadChannelRecord 1 (linked { defaultCal with populated := false }).channels[1]).populated = false ∧
    ((linked { defaultCal with populated := false }).working 0).unsaved = true ∧
    ((linked { defaultCal with companion := some 2 }).working 0).companion = none ∧
    loadGlobalRecord ⟨2, 15, false, defaultGlobal⟩ = { defaultGlobal with unsaved := true } := by decide

/-! ## Witnesses: frames, requests and events -/

theorem ok_DecodeOfEncode : (Instr.learnReference 3 5 0).wellFormed = true ∧
    encodeFrame (.learnReference 3 5 0) = some (3, 0x305100007F) := by decide
/-- A span on link 0 with these bits on data in, from select's fall to its rise. -/
def span (bits : List Bool) (s : State) : State :=
  selectRises 0 (bits.foldl (fun u b => clockLink 0 b u) (selectFalls 0 s))
/-- A span on link 0, `n` clocks old, with these bits shifted in and 1 on data in: one more clock, and select rises. -/
def lastClock (n : Nat) (w : BitVec 40) : List Instr :=
  (selectRises 0 (clockLink 0 true (updLink 0 (fun l => { l with
    shifter := { l.shifter with selected := true, clocks := n, shiftIn := w } }) State.reset))).pending
/-- R170: the first bit in is the highest; the 40th clock of the frame 01 10 FF FF F1 makes a MOVE, the 39th and the
41st of a span a frame of wrong length; no clock makes nothing. -/
theorem test_spans : [true, false, true, true].foldl shiftBit 0 = 0b1011 ∧
    lastClock 39 (0x0110FFFFF1 >>> 1) = [.move 0 1 0 0xFFFF] ∧ lastClock 38 0 = [.frameError 0] ∧
    lastClock 40 (0x0110FFFFF1 >>> 1) = [.frameError 0] ∧ (span [] State.reset).pending = [] := by decide
/-- R170: a span that begins 1 µs after the previous rise is too soon, one that begins 2 µs after it is not. -/
theorem test_gap_of_spans :
    ((selectFalls 0 (elapse 1 (span [] State.reset))).link 0).shifter.tooSoon = true ∧
    ((selectFalls 0 (elapse 2 (span [] State.reset))).link 0).shifter.tooSoon = false := by decide
/-- A link whose select is high, with no previous rise, with one 1 µs and 2 µs ago; spans of each length. -/
theorem ok_RequestsTouchOneLink_wires : (State.reset.link 0).shifter.selected = false ∧
    (State.reset.link 0).shifter.lastRise = none ∧ (State.reset.link 0).reply.status = none ∧
    ((elapse 1 (span [] State.reset)).link 0).shifter.lastRise.map (fun r => decide (r + 2 ≤ 1)) = some false ∧
    ((elapse 2 (span [] State.reset)).link 0).shifter.lastRise.map (fun r => decide (r + 2 ≤ 2)) = some true ∧
    (List.replicate 40 true).length = 40 ∧ (List.replicate 39 true).length ≠ 40 ∧ List.replicate 41 true ≠ [] ∧
    (List.replicate 41 true).length ≠ 40 ∧ [true] ≠ [] := by decide
theorem ok_RequestsTouchOneLink : requestFields (.move 0 1 2 3) = some (0, 0x01, 1, 2, 3) ∧
    ∃ t, exec (.move 0 1 2 3) State.reset = .next t := ⟨by decide, _, rfl⟩
theorem ok_NotReady : (Instr.move 0 1 2 3).wellFormed = true ∧ State.reset.ready = false ∧ State.reset.agenda = [] ∧
    requestFields (.move 0 1 2 3) = some (0, 0x01, 1, 2, 3) ∧ assignedCode 0x01 = true := by decide
theorem ok_RefusedRequests : State.reset.agenda = [] ∧ requestFields (.move 0 1 2 3) = some (0, 0x01, 1, 2, 3) ∧
    ∃ t, exec (.move 0 1 2 3) State.reset = .next t ∧ (t.link 0).reply.result = .notReady :=
  ⟨by decide, by decide, _, rfl, by decide⟩
theorem ok_NopAndIdentify : atWork.agenda = [] ∧ 8 ≤ (8 : BitVec 4).toNat := by decide

/-- An entry of client 2 with channel 1 as its member. -/
def grouped : State := setGroup 3 (some ⟨7, 2, .closing, .localReq, Vector.ofFn fun c =>
  if c = 1 then some .live else none⟩) atWork

theorem ok_Reads : grouped.agenda = [] ∧ grouped.ready = true ∧ chanOf 1 = some 1 ∧
    chanOf 8 = none ∧ chanOf 15 = none ∧ (8 : BitVec 4) ≠ 15 ∧ (14 : BitVec 4) ≠ 15 ∧ (grouped.ch 1).cal.populated = true ∧
    (grouped.ch 1).cal.profile = some (List.replicate 32 1000) ∧ (List.replicate 32 1000)[31]? = some 1000 ∧
    ((with1 fun k => { k with cal := defaultCal }).ch 1).cal.profile = none ∧
    (grouped.ch 1).cal.zones[2]? = some ⟨1024, .watch, 160, 1200, 800⟩ ∧ groupIndex 3 = some 3 ∧
    (grouped.group 3).map (fun e => e.members[1]) = some (some .live) := by decide
/-- The bounds of the selectors and indices; an unpopulated channel; a free entry and a channel that is no member. -/
theorem ok_Reads_bounds : (8 : BitVec 4).toNat = 8 ∧ (6 : BitVec 4).toNat = 3 + (3 : Client).val ∧
    9 ≤ (9 : BitVec 4).toNat ∧ (15 : BitVec 4).toNat = 15 ∧ (grouped.ch 1).cal.zones.length ≤ (3 : Word).toNat ∧
    (List.replicate 32 1000).length ≤ (32 : Word).toNat ∧ 7 ≤ (7 : BitVec 4).toNat ∧ (5 : BitVec 4).toNat ≤ 5 ∧
    ((with1 fun k => { k with cal := { k.cal with populated := false } }).ch 1).cal.populated = false ∧
    groupIndex (0 : Word).toNat = some 0 ∧ grouped.group 0 = none ∧ (11 : BitVec 4).toNat < 12 ∧
    12 ≤ (12 : BitVec 4).toNat ∧ 3 < (4 : Word).toNat ∧
    (grouped.group 3).map (fun e => e.members[2]) = some none := by decide
/-- R143: an entry whose members 0 to 3 have the other outcomes. -/
theorem ok_Reads_outcomes :
    let s := setGroup 3 (some ⟨7, 2, .closing, .localReq, Vector.ofFn fun c => [some .reached, some .reversed,
      some (.ended .halted), some (.skipped .claimed), none, none, none, none][c]⟩) atWork
    (s.group 3).map (fun e => [e.members[0], e.members[1], e.members[2], e.members[3]]) =
      some [some .reached, some .reversed, some (.ended .halted), some (.skipped .claimed)] := by decide
/-- R143: a RUNNING member reads 1900h; R71: the kind of zone 2, WATCH, reads 2; R60: Nr reads 24. -/
theorem test_reads : answer (.readGroup 0 15 5 3) grouped = some (.done, 0x1900) ∧
    answer (.readProfile 0 1 2 2) grouped = some (.done, 2) ∧
    answer (.readParameter 0 1 1 0) grouped = some (.done, 24) := by decide
/-- Channel 1 WAITING with a deadline. -/
def waitingOn (deadline : Nat) : State := with1 fun k => { k with
  moc := { k.moc with motion := .waiting, wait := some deadline } }
/-- READ PANEL of a channel with an order and deadlines, second in the start queue and locked by client 1; of one in a
reversal; and of one with neither. -/
theorem ok_Reads_panel :
    let s := updAuth 1 (fun a => { a with lockouts := 2, overrideLevel := 3, window := some 50001 })
      (updMoc 1 (fun m => { m with motion := .queued, order := some { order .closing .manual with k := 3 } })
        { atWork with startQueue := [2, 1] })
    s.agenda = [] ∧ s.ready = true ∧ s.startQueue.Nodup ∧ s.startQueue[(1 : Fin 8).val]? = some 1 ∧
    (3 : Chan) ∉ s.startQueue ∧ (s.ch 1).auth.overrideLevel ≤ 3 ∧ (s.ch 1).auth.lockouts = 1 <<< (1 : Client).val ∧
    (s.ch 1).auth.window = some 50001 ∧ ((s.ch 1).moc.order.map Order.k) = some 3 ∧ (s.ch 3).moc.order = none ∧
    (s.ch 3).moc.wait = none ∧ (s.ch 3).auth.lockouts = 0 ∧ (s.ch 3).moc.revTarget = none ∧
    ((reversingTo .reversing 600 none).ch 1).moc.revTarget = some 600 ∧
    ((waitingOn 40001).ch 1).moc.wait = some 40001 := by decide

/-- A client that hears, one whose mask shuts the kind out, an unpopulated channel, a full queue. -/
theorem ok_Post : Hears atWork 0 .pinch 1 ∧ (atWork.link 0).queue.length < 16 ∧
    ¬ Hears (updLink 0 (fun l => { l with mask := 0 }) atWork) 0 .pinch 1 ∧
    ¬ Hears (with1 fun k => { k with cal := { k.cal with populated := false } }) 0 .pinch 1 ∧
    (16 ≤ ((updLink 0 (fun l => { l with queue := List.replicate 16 ⟨.drift, some 1, 0, 16, 0⟩ }) atWork).link
      0).queue.length) := by unfold Hears; decide
/-- R180: a client whose mask has the kind of an event of no channel, one whose mask has not, and the client
that a CLIENT_LAPSE names. -/
theorem ok_Post_noChannel : (atWork.link 0).mask.getLsbD (eventCode .groupDone) = true ∧
    ((updLink 0 (fun l => { l with mask := 0 }) atWork).link 0).mask.getLsbD (eventCode .groupDone) = false ∧
    ¬ (EventKind.groupDone = .clientLapse ∧ (0 : Word) = natWord (0 : Client).val) ∧
    (EventKind.clientLapse = .clientLapse ∧ (2 : Word) = natWord (2 : Client).val) := by decide
theorem ok_EventRequests : atWork.agenda = [] ∧ 5 ≤ (5 : BitVec 4).toNat ∧ (atWork.link 0).queue = [] ∧ (3 : BitVec 4).toNat ≤ 3 ∧
    atWork.ready = true ∧ ∃ e rest,
      ((updLink 0 (fun l => { l with queue := [⟨.drift, some 1, 0, 16, 0⟩] }) atWork).link 0).queue = e :: rest :=
  ⟨by decide, by decide, by decide, by decide, by decide, _, _, rfl⟩

/-- Heads of channel 1 and of none; a modifier and an argument that are malformed. -/
theorem ok_EventRequests_words :
    ((⟨.drift, some 1, 0, 16, 0⟩ : Event).chan = some 1) ∧ ((⟨.startup, none, 0, 256, 9⟩ : Event).chan = none) ∧
    (1 : BitVec 4) ≠ 0 ∧ (1 : Word) ≠ 0 := by decide
/-- R179: word 0 of DRIFT (5) of channel 1, and of STARTUP (15) of none; word 3 is the time of posting. -/
theorem test_event_words :
    let queued := fun e => updLink 0 (fun l => { l with queue := [e] }) atWork
    answer (.readEvent 0 0 0 0) (queued ⟨.drift, some 1, 0, 16, 0⟩) = some (.done, 0x0501) ∧
    answer (.readEvent 0 0 0 0) (queued ⟨.startup, none, 0, 256, 9⟩) = some (.done, 0x0F0F) ∧
    answer (.readEvent 0 0 3 0) (queued ⟨.startup, none, 0, 256, 9⟩) = some (.done, 9) := by decide

/-! ## Witnesses: Hall inputs -/

theorem ok_FourthEqualSample : resetHif.phase ≠ some 1 ∧ resetHif.candidate ≠ some 1 ∧
    ({ resetHif with phase := some 2 } : Hif).phase = some 2 := by decide
/-- The acquisition; a coast step, and a drift step at 14 and at 15, at both ends of the counter's range. -/
theorem ok_StepsWithTheDriveOff : atWork.agenda = [] ∧ atWork.ready = true ∧ (atWork.ch 1).cal.populated = true ∧
    (atWork.ch 1).moc.motion.drive = none ∧
    ((with1 fun k => { k with hif := resetHif }).ch 1).hif.phase = none ∧
    (atWork.ch 1).hif.phase = some 0 ∧ stepDir 0 1 = some .opening ∧
    ({ atWork with clock := ⟨130000, 0, 0, 0⟩ } : State).coasting 1 = false ∧
    (-1024 ≤ (5118 : Int) + stepDelta .opening ∧ (5118 : Int) + stepDelta .opening ≤ 5119) ∧
    (-1024 ≤ (-1023 : Int) + stepDelta .closing ∧ (-1023 : Int) + stepDelta .closing ≤ 5119) ∧
    ({ atWork with clock := ⟨129999, 0, 0, 0⟩ } : State).coasting 1 = true ∧ Hears atWork 0 .drift 1 ∧
    ((with1 fun k => { k with hif := { k.hif with drift := 15 } }).ch 1).hif.drift = 15 ∧
    ((with1 fun k => { k with hif := { k.hif with drift := 14 } }).ch 1).hif.drift ≠ 15 := by unfold Hears; decide
/-- Range saturations: an order driven at −1024, a reversal at 5119, a channel in FAULT and one at rest. -/
theorem ok_RangeSaturation :
    let at' := fun (x : Int) (s : State) => updHif 1 (fun h => { h with pos := x }) s
    let closing := driving .closing (order .closing .auto) (-1024)
    let reversing := at' 5119 (reversingTo .reversing 5119 (some 190000))
    let fault := at' 5119 (with1 fun k => { k with moc := { k.moc with motion := .fault, fault := some .quad } })
    (closing.calm ∧ closing.ready = true ∧ (closing.ch 1).cal.populated = true ∧ (closing.ch 1).hif.phase = some 0 ∧
      stepDir 0 2 = some .closing ∧ (closing.ch 1).hif.pos + stepDelta .closing < -1024 ∧
      (closing.ch 1).moc.order = some (order .closing .auto) ∧ (order .closing .auto).mover = .client ∧
      closing.inReversal 1 = false ∧ (closing.ch 1).level ≠ .noneKnown ∧ Hears closing 0 .channelFault 1 ∧
      Hears closing 0 .moveEnded 1 ∧ Hears closing 0 .levelChanged 1 ∧ (closing.link 0).queue = []) ∧
    (reversing.calm ∧ reversing.inReversal 1 = true ∧ (reversing.ch 1).moc.order = none ∧
      stepDir 0 1 = some .opening ∧ 5119 < (reversing.ch 1).hif.pos + stepDelta .opening) ∧
    (fault.calm ∧ (fault.ch 1).moc.motion = .fault ∧ (fault.ch 1).moc.order = none) ∧
    (at' 5119 atWork).calm := by unfold State.calm Hears; decide
/-- R118: the order ends before the level drops, at a RANGE fault and at PANEL RESTART. -/
theorem test_range_fault_ends_the_order_first :
    ((after (.hallAcceptance 1 2) (driving .closing (order .closing .auto) (-1024))).map fun t =>
      (t.link 2).queue.map Event.kind) = some [.channelFault, .moveEnded, .levelChanged] := by decide
theorem test_restart_ends_the_order_first :
    ((after (.panelRestart 0 1 0 0) (driving .closing (order .closing .auto) 500)).map fun t =>
      (t.link 2).queue.map Event.kind) = some [.moveEnded, .levelChanged] := by decide
/-- A closing step at 500 of a full and of an empty FIFO. -/
theorem ok_ClosingStep : (driving .closing (order .closing .auto) 500).agenda = [] ∧
    (driving .closing (order .closing .auto) 500).ready = true ∧
    ((driving .closing (order .closing .auto) 500).ch 1).cal.populated = true ∧
    ((driving .closing (order .closing .auto) 500).ch 1).moc.motion = .closing ∧
    ((driving .closing (order .closing .auto) 500).ch 1).moc.order = some (order .closing .auto) ∧
    ((driving .closing (order .closing .auto) 500).ch 1).cal.companion = none ∧
    (driving .closing (order .closing .auto) 500).leadersOf 1 = [] ∧
    ((driving .closing (order .closing .auto) 500).ch 1).hif.phase = some 0 ∧ stepDir 0 2 = some .closing ∧
    atTarget .closing .toEnd 499 = false ∧ (order .closing .auto).dir = .closing ∧
    ((-1023 : Int) ≤ 500 ∧ (500 : Int) ≤ 5119) := by decide
/-- An opening step, and both ends of the range of the counter. -/
theorem ok_OpeningStep : let s := driving .opening (order .opening .auto) 500
    s.agenda = [] ∧ s.ready = true ∧ (s.ch 1).cal.populated = true ∧ (s.ch 1).moc.motion = .opening ∧
    (s.ch 1).moc.order = some (order .opening .auto) ∧ (order .opening .auto).dir = .opening ∧
    (s.ch 1).cal.companion = none ∧ s.leadersOf 1 = [] ∧ (s.ch 1).hif.phase = some 0 ∧
    stepDir 0 1 = some .opening ∧ atTarget .opening .toEnd 501 = false ∧
    ((driving .opening (order .opening .auto) 5118).ch 1).hif.pos ≤ 5118 ∧
    -1025 ≤ ((driving .opening (order .opening .auto) (-1024)).ch 1).hif.pos := by decide
/-- At LEARNED before the run-up ends and past it. -/
theorem ok_ClosingStep_reference :
    let s := updMoc 1 (fun m => { m with steps := 23 }) (driving .closing (order .closing .auto) 500)
    (s.ch 1).level = .learned ∧ (order .closing .auto).phase ≠ .refClosing ∧
      (s.ch 1).cal.nr ≤ (s.ch 1).moc.steps + 1 ∧ reference (s.ch 1).cal ((s.ch 1).hif.pos - 1) = some 1000 ∧
      22 + 1 < (s.ch 1).cal.nr := by decide
/-- A closing step to the target 500, an opening step to the soft stop 988, and one of the opening half of a
LEARN REFERENCE run. -/
theorem ok_StepToTarget :
    let closing := { order .closing .auto with target := .pos 500 }
    let opening := { order .opening .auto with target := .pos 988 }
    let half := { opening with mover := .learn, phase := .refOpening }
    let s := driving .closing closing 501
    let u := driving .opening opening 987
    (s.calm ∧ s.ready = true ∧ (s.ch 1).cal.populated = true ∧ (s.ch 1).moc.motion.drive = some .closing ∧
      (s.ch 1).moc.order = some closing ∧ closing.mover = .client ∧ closing.phase = .notLearning ∧
      (s.ch 1).hif.phase = some 0 ∧ stepDir 0 2 = some .closing ∧
      atTarget .closing closing.target ((s.ch 1).hif.pos + stepDelta .closing) = true) ∧
    (u.calm ∧ (u.ch 1).moc.order = some opening ∧ (u.ch 1).moc.motion ≠ .reversing ∧ stepDir 0 1 = some .opening ∧
      atTarget .opening opening.target ((u.ch 1).hif.pos + stepDelta .opening) = true ∧
      (u.ch 1).cal.travel = some 1000 ∧ opening.target = .pos (1000 - (u.ch 1).cal.ms) ∧
      Hears u 0 .endReached 1) ∧
    ((driving .opening half 987).calm ∧ half.phase = .refOpening ∧ half.dir = .opening) := by
  unfold State.calm Hears; decide
/-- Below the ninth error; and the ninth with the drive on, in a state of the motion table. -/
theorem ok_QuadratureError : atWork.agenda = [] ∧ atWork.ready = true ∧ (atWork.ch 1).cal.populated = true ∧
    (atWork.ch 1).hif.phase = some 0 ∧ (0 : Pair) ≠ 3 ∧ stepDir 0 3 = none ∧ (atWork.ch 1).moc.motion ≠ .fault ∧
    Hears atWork 0 .quadError 1 := by unfold Hears; decide
theorem ok_QuadratureError_ninth :
    let s := updHif 1 (fun h => { h with quadErrors := 8 }) (driving .closing (order .closing .auto) 500)
    MotionTable s ∧ (s.ch 1).moc.motion.drive ≠ none ∧ 8 ≤ (s.ch 1).hif.quadErrors ∧ s.startQueue = [] ∧
      ∀ d, (s.ch d).moc.motion ≠ .waiting := by
  unfold MotionTable Channel.inTable OpeningFirst; decide
/-- The fourth and the fifth contrary step, of an order and of a reversal. -/
theorem ok_ContraryStep :
    let s := fun n => updHif 1 (fun h => { h with contrary := n }) (driving .closing (order .closing .auto) 500)
    let r := updHif 1 (fun h => { h with contrary := 4 }) (reversingTo .reversing 600 (some 190000))
    State.calm (s 4) ∧ (s 3).agenda = [] ∧ (s 3).ready = true ∧ ((s 3).ch 1).cal.populated = true ∧
    ((s 3).ch 1).moc.motion.drive = some .closing ∧ Dir.opening ≠ Dir.closing ∧ ((s 3).ch 1).hif.phase = some 0 ∧
    stepDir 0 1 = some .opening ∧ ((s 3).ch 1).hif.contrary < 4 ∧ 4 ≤ ((s 4).ch 1).hif.contrary ∧
    ((s 4).ch 1).moc.order = some (order .closing .auto) ∧ (order .closing .auto).mover = .client ∧
    r.calm ∧ (r.ch 1).moc.motion = .reversing ∧ (r.ch 1).moc.order = none ∧ stepDir 0 2 = some .closing ∧
    4 ≤ (r.ch 1).hif.contrary := by unfold State.calm; decide

/-! ## Witnesses: supply and load -/

/-- Both alternatives of the quiet sample, and each clause of the state at its bound. -/
theorem ok_SupplySamples : atWork.agenda = [] ∧ atWork.sup.settling < 3 ∧
    ({ resetSupply with settling := 3 }.sample 600).next = .normal ∧
    (⟨599, .low, 0, 0, 0, 3⟩ : Supply).next = .crank ∧ (⟨700, .crank, 0, 0, 39, 3⟩ : Supply).next = .crank ∧
    (⟨700, .crank, 4, 0, 40, 3⟩ : Supply).next = .low ∧ (⟨1700, .crank, 3, 4, 40, 3⟩ : Supply).next = .high ∧
    (⟨700, .crank, 3, 3, 40, 3⟩ : Supply).next = .normal ∧ (⟨600, .normal, 4, 0, 0, 3⟩ : Supply).next = .low ∧
    (⟨1601, .normal, 0, 4, 0, 3⟩ : Supply).next = .high ∧ (⟨800, .normal, 3, 3, 0, 3⟩ : Supply).next = .normal ∧
    (⟨850, .low, 0, 0, 19, 3⟩ : Supply).next = .low ∧ (⟨1601, .low, 0, 4, 20, 3⟩ : Supply).next = .high ∧
    (⟨850, .low, 0, 3, 20, 3⟩ : Supply).next = .normal ∧ (⟨799, .high, 4, 0, 0, 3⟩ : Supply).next = .low ∧
    (⟨1550, .high, 3, 0, 20, 3⟩ : Supply).next = .normal ∧ (⟨1550, .high, 3, 0, 19, 3⟩ : Supply).next = .high := by
  decide
/-- The fourth sample below 8.00 V, and a sample below 6.00 V. -/
theorem ok_SupplySamples_change :
    let s := { atWork with sup := { resetSupply with settling := 3, lowRun := 3 } }
    3 ≤ s.sup.settling ∧ (s.sup.sample 799).next = .low ∧ s.sup.state = .normal ∧
      (s.sup.sample 599).next = .crank ∧ (s.link 0).mask.getLsbD 8 = true ∧ 2047 ≤ 2047 := by decide
/-- R22: the fourth sample and one after it. -/
theorem ok_SupplySamples_settling : { resetSupply with settling := 3 }.settling < 4 ∧
    { resetSupply with settling := 4 }.settling = 4 := by decide
theorem ok_Crank : let s := { driving .closing (order .closing .auto) 500 with sup := { resetSupply with settling := 3 } }
    MotionTable s ∧ 3 ≤ s.sup.settling ∧ s.sup.state ≠ .crank ∧ 599 < 600 := by
  unfold MotionTable Channel.inTable OpeningFirst; decide
/-- The entry into CRANK of a state in the motion table (`ok_Crank`), with a queue that is full before it. -/
theorem ok_Crank_posted : let s := { driving .closing (order .closing .auto) 500 with sup := { resetSupply with settling := 3 } }
    s.agenda = [] ∧ (s.sup.sample 599).next = .crank ∧ (s.link 0).mask.getLsbD 8 = true ∧
    (s.link 0).queue.length ≤ 16 ∧
    ((updLink 0 (fun l => { l with queue := List.replicate 16 ⟨.drift, some 1, 0, 16, 0⟩ }) s).link 0).queue.length ≤
      16 := by decide

/-- Channels 1 and 5 hold a record; channel 5 is served first when 3 was served last. -/
def twoRecords : State :=
  { updHif 1 (fun h => { h with fifo := [⟨5, 500, .closing, 1350⟩] })
      (updHif 5 (fun h => { h with fifo := [⟨7, 499, .closing, 1350⟩, ⟨9, 498, .closing, 1350⟩] }) atWork) with
    lde := ⟨3, none⟩ }
theorem ok_LdeTakes : twoRecords.agenda = [] ∧ twoRecords.lde.busy = none ∧
    (twoRecords.ch 5).hif.fifo = [⟨7, 499, .closing, 1350⟩, ⟨9, 498, .closing, 1350⟩] ∧
    ∀ d : Chan, (d - twoRecords.lde.lastServed - 1).val < ((5 : Chan) - twoRecords.lde.lastServed - 1).val →
      (twoRecords.ch d).hif.fifo = [] := by decide
/-- A raised close under drive, the closing half of a learning run, and an order that waits with the drive off. -/
theorem ok_LdeTakes_order :
    let s := fun (m : Motion) (o : Order) =>
      updHif 1 (fun h => { h with fifo := [⟨5, 500, .closing, 1350⟩] }) (driving m o 500)
    let raised := { order .closing .manual with k := 2 }
    let half := { order .closing .auto with mover := .learn, phase := .refClosing }
    (s .closing raised).agenda = [] ∧ (s .closing raised).lde.busy = none ∧
    ((s .closing raised).ch 1).hif.fifo = [⟨5, 500, .closing, 1350⟩] ∧
    ((s .closing raised).ch 1).moc.motion.drive ≠ none ∧ ((s .closing raised).ch 1).moc.order = some raised ∧
    ((s .closing half).ch 1).moc.order = some half ∧ half.phase = .refClosing ∧
    ((s .waiting raised).ch 1).moc.motion.drive = none ∧ (twoRecords.ch 5).moc.order = none := by decide
/-- A record of channel 1 in each row of R32's table, one whose take was overtaken, and a computed step of a learning
close in NORMAL and in LOW. -/
theorem ok_LdeCompletion :
    let s := fun (k : LoadContext) (t : Take) => { updCtx 1 (fun _ => k) atWork with lde := ⟨1, some t⟩ }
    let calmStep : Take := { jam with record := ⟨1000, 500, .closing, 1350⟩ }
    let quiet := { nearHard with smoothed := 0 }
    let half := { order .closing .auto with mover := .learn, phase := .refClosing }
    (s nearHard jam).agenda = [] ∧ (s nearHard jam).lde.busy = some jam ∧ jam.dropped = false ∧
    { jam with dropped := true }.dropped = true ∧ { nearHard with runDir := some .opening }.runDir = some .opening ∧
    { nearHard with decided := true }.decided = true ∧ nearHard.runDir = some .closing ∧ nearHard.decided = false ∧
    jam.record.dir = .closing ∧ jam.gap = false ∧ nearHard.seeded = true ∧ { jam with gap := true }.gap = true ∧
    { nearHard with seeded := false }.seeded = false ∧
    { jam with record := { jam.record with dir := .opening } }.record.dir = .opening ∧
    (computedStep calmStep quiet).2 = none ∧ calmStep.learnClose = false ∧ calmStep.gap = false ∧
    (computedStep { calmStep with learnClose := true, supply := .low } quiet).2 = none ∧
    ((driving .closing half 500).ch 1).moc.order = some half ∧ half.phase = .refClosing := by decide
theorem ok_FullStep : isFull jam nearHard = true ∧ isBlanked jam nearHard = false ∧
    zoneOf jam = some ⟨24, .guard, 80, 600, 400⟩ ∧ reference jam.cal jam.record.pos = some 1000 := by decide
/-- The kinds of zone, blanked and not, S on both sides of the limit; a counted step and one that is not. -/
theorem ok_FullStep_kinds : (zoneOf { jam with record := ⟨9000, 23, .closing, 1350⟩ }).map Zone.kind = some .seal ∧
    (zoneOf { jam with record := ⟨9000, 1024, .closing, 1350⟩ }).map Zone.kind = some .watch ∧
    isFull { jam with blank := 1 } nearHard = true ∧ isBlanked { jam with blank := 1 } nearHard = true ∧
    ((80 : Nat) : Int) < (computedStep jam nearHard).1.smoothed ∧
    (computedStep { jam with record := ⟨1000, 500, .closing, 1350⟩ } { nearHard with smoothed := 0 }).1.smoothed ≤ 80 ∧
    jam.cal.travel = some 1000 ∧ jam.cal.nr ≤ nearHard.runUp ∧ jam.blank = 0 ∧ jam.reblanked = false ∧
    jam.blank = nearHard.blank ∧ 15 = min ((500 : Int).toNat / 32) ((1000 + 31) / 32 - 1) := by decide
/-- Each clause, at its bound. -/
theorem ok_Decisions : ZoneKind.guard ≠ .seal ∧ ((400 : Nat) : Int) ≤ 400 ∧ (399 : Int) < (400 : Nat) ∧
    min 65535 (600 * (0 + 1)) ≤ 600 ∧ 599 < min 65535 (600 * (0 + 1)) ∧
    isFull jam nearHard = true ∧ isFull jam { nearHard with runUp := 23 } = false ∧
    { jam with level := .noneKnown }.level = .noneKnown ∧ jam.level ≠ .noneKnown ∧
    (min 65535 (6000 * (0 + 1)) ≤ 6000 ∧ 5999 < min 65535 (6000 * (0 + 1))) := by decide
/-- A decision of a REMOTE and of a LOCAL order differ in the inhibit only; the levels LEARNED and
CLOSED_KNOWN. -/
theorem ok_Pinch : pinching.calm ∧ pinching.lde.busy = some jam ∧ jam.dropped = false ∧
    ((treatRecord jam (pinching.ch jam.chan).ctx).2).map Decision.reason = some .hard ∧ jam.learnClose = false ∧
    (pinching.ch jam.chan).moc.motion = .closing ∧
    (pinching.ch jam.chan).moc.order = some (order .closing .auto) ∧ (order .closing .auto).mover = .client ∧
    (pinching.ch jam.chan).level = .learned ∧ (pinching.ch jam.chan).cal.travel = some 1000 ∧
    (pinching.ch jam.chan).cal.ms ≤ 1000 ∧ Hears pinching 0 .pinch 1 := by
  unfold State.calm Hears; decide

theorem ok_Pinch_lowLevels : let s := updChan 1 (fun k => { k with level := .closedKnown }) pinching
    s.calm ∧ ((treatRecord jam (s.ch jam.chan).ctx).2).isSome = true ∧ (s.ch jam.chan).moc.motion = .closing ∧
    (s.ch jam.chan).level = .closedKnown := by unfold State.calm; decide

/-- The same record when the drive has gone off since the take. -/
theorem ok_Pinch_discarded : let s := updMoc 1 (fun m => { m with motion := .idle, order := none }) pinching
    s.agenda = [] ∧ s.lde.busy = some jam ∧ jam.dropped = false ∧ jam.learnClose = false ∧
    ((treatRecord jam (s.ch jam.chan).ctx).2).isSome = true ∧ (s.ch jam.chan).moc.motion ≠ .closing := by decide
/-- A stall at the first position of the GUARD zone. -/
theorem ok_Pinch_stall : let s := driving .closing (order .closing .auto) 24
    s.calm ∧ (s.ch 1).moc.stall = some 40001 ∧ 40001 ≤ s.clock.now ∧ (s.ch 1).moc.motion = .closing ∧
    (s.ch 1).moc.order = some (order .closing .auto) ∧ (order .closing .auto).mover = .client ∧
    (s.ch 1).level ≠ .noneKnown ∧ 0 < (s.ch 1).moc.steps ∧
    zoneKindAt (s.ch 1).cal.zones (s.ch 1).hif.pos ≠ some .seal := by unfold State.calm; decide

/-! ## Witnesses: motion -/

theorem ok_ClosedEnd : let s := driving .closing (order .closing .auto) 23
    s.calm ∧ (s.ch 1).moc.stall = some 40001 ∧ 40001 ≤ s.clock.now ∧ (s.ch 1).moc.motion = .closing ∧
    (s.ch 1).moc.order = some (order .closing .auto) ∧ (order .closing .auto).mover = .client ∧
    (s.ch 1).level ≠ .noneKnown ∧ 0 < (s.ch 1).moc.steps ∧
    zoneKindAt (s.ch 1).cal.zones (s.ch 1).hif.pos = some .seal ∧ (s.ch 1).hif.pos.natAbs ≤ 24 := by
  unfold State.calm; decide
theorem ok_ClosedEnd_below : let s := driving .closing (order .closing .auto) (-24)
    zoneKindAt (s.ch 1).cal.zones (s.ch 1).hif.pos = some .seal ∧ (s.ch 1).hif.pos.natAbs ≤ 24 := by decide
/-- A correction of 25 below the closed end, at LEARNED and at ENDS_KNOWN. -/
theorem ok_ClosedEnd_corrected : let s := driving .closing (order .closing .auto) (-25)
    s.calm ∧ (order .closing .auto).phase = .notLearning ∧ (s.ch 1).level = .learned ∧
    zoneKindAt (s.ch 1).cal.zones (s.ch 1).hif.pos = some .seal ∧ 24 < (s.ch 1).hif.pos.natAbs ∧
    ((updChan 1 (fun k => { k with level := .endsKnown }) s).ch 1).level ≠ .learned := by unfold State.calm; decide
/-- The closed end found, with a record that supports LEARNED. -/
theorem ok_ClosedEnd_found :
    let s := updChan 1 (fun k => { k with level := .noneKnown }) (driving .closing (order .closing .auto) 500)
    s.calm ∧ (s.ch 1).moc.stall = some 40001 ∧ (s.ch 1).moc.motion = .closing ∧ 0 < (s.ch 1).moc.steps ∧
    (s.ch 1).level = .noneKnown := by unfold State.calm; decide
/-- An opening stall at Lt − 24 and one below it. -/
theorem ok_OpenEnd : let s := driving .opening (order .opening .auto) 976
    s.calm ∧ (s.ch 1).moc.motion = .opening ∧ 0 < (s.ch 1).moc.steps ∧ (s.ch 1).cal.travel = some 1000 ∧
    ((1000 : Nat) : Int) - 24 ≤ (s.ch 1).hif.pos ∧ (s.ch 1).level = .learned ∧
    ¬ ((1000 : Nat) : Int) - 24 ≤ ((driving .opening (order .opening .auto) 975).ch 1).hif.pos := by
  unfold State.calm; decide
/-- A stall before the first step, at a count of 1 and of 2. -/
theorem ok_NoSteps :
    let s := fun n =>
      updMoc 1 (fun m => { m with steps := 0, noStep := n }) (driving .opening (order .opening .auto) 500)
    State.calm (s 1) ∧ State.calm (s 2) ∧ ((s 2).ch 1).moc.stall = some 40001 ∧ ((s 2).ch 1).moc.motion = .opening ∧
    ((s 2).ch 1).moc.steps = 0 ∧ ((s 1).ch 1).moc.noStep < 2 ∧ ((s 2).ch 1).moc.noStep = 2 := by
  unfold State.calm; decide
/-- R44: a neighbour at the end of its run-up, and one a step short of it. -/
theorem ok_BrakeExpiry_neighbours :
    let s := fun (n : Nat) => updChan 2 (fun k => { k with
      ctx := { k.ctx with runDir := some .closing, runUp := n, blank := 3 }
      moc := { k.moc with motion := .closing } }) (reversingTo .brakingPinch 501 none)
    ((s 24).ch 2).cal.nr ≤ ((s 24).ch 2).ctx.runUp ∧ ¬ ((s 23).ch 2).cal.nr ≤ ((s 23).ch 2).ctx.runUp ∧
    ((s 24).ch 2).blanked.ctx.blank = 8 ∧ ((s 23).ch 2).blanked.ctx.blank = 3 ∧ (s 24).agenda = [] ∧
    ((s 24).ch 1).moc.motion = .brakingPinch := by decide
theorem ok_BrakeExpiry : let s := reversingTo .brakingPinch 501 none
    s.agenda = [] ∧ (s.ch 1).moc.brakeRunning = true ∧ (s.ch 1).moc.brakeExpiry ≤ s.clock.now ∧
    (s.ch 1).moc.motion = .brakingPinch ∧ (s.ch 1).moc.revTarget = some 501 ∧ (s.ch 1).hif.pos < 501 := by decide
/-- Channel 1 QUEUED with `o`, channels 2 and 3 QUEUED ahead of it and behind it, and the three slots taken. -/
def threeQueued (o : Order) : State :=
  let queued := fun (o : Order) (m : Moc) => { m with motion := .queued, order := some o }
  let taken := fun (m : Moc) => { m with motion := .brakingPinch, slot := true, revTarget := some 600 }
  { (updMoc 1 (queued o) (updMoc 2 (queued (order .opening .auto)) (updMoc 3 (queued (order .closing .auto))
      (updMoc 5 taken (updMoc 6 taken (updMoc 7 taken atWork)))))) with startQueue := [2, 1, 3] }
/-- R93: a reversal whose target is the present position. -/
theorem ok_BrakeExpiry_atTarget : let s := reversingTo .brakingPinch 500 none
    s.calm ∧ (s.ch 1).moc.brakeRunning = true ∧ (s.ch 1).moc.brakeExpiry ≤ s.clock.now ∧
    (s.ch 1).moc.revTarget = some 500 ∧ 500 ≤ (s.ch 1).hif.pos := by unfold State.calm; decide
/-- Channel 1's brake timer expires now. -/
def brakeEnds (s : State) : State := updMoc 1 (fun m => { m with brakeRunning := true, brakeExpiry := 40001 }) s
/-- R84: BRAKING within an order that is not at its target, and one that is. -/
theorem ok_BrakeExpiry_inOrder :
    let at' := { order .closing .auto with target := .pos 500 }
    let s := brakeEnds (driving .brakingOrder (order .closing .auto) 500)
    let u := brakeEnds (driving .brakingOrder at' 500)
    s.agenda = [] ∧ (s.ch 1).moc.brakeRunning = true ∧ (s.ch 1).moc.brakeExpiry ≤ s.clock.now ∧
    (s.ch 1).moc.motion = .brakingOrder ∧ (s.ch 1).moc.order = some (order .closing .auto) ∧
    (s.ch 1).cal.companion = none ∧ s.leadersOf 1 = [] ∧ atTarget .closing .toEnd 500 = false ∧
    u.calm ∧ (u.ch 1).moc.order = some at' ∧ at'.mover = .client ∧ at'.phase = .notLearning ∧
    atTarget .closing at'.target (u.ch 1).hif.pos = true := by unfold State.calm; decide
/-- R109: QUEUED behind an entry whose brake runs, with a slot free and the spacing run out; with the spacing
running; and with every slot taken. -/
theorem ok_BrakeExpiry_queued :
    let q := fun (sp : Spacing) (ns : Nat) =>
      { brakeEnds (updMoc 2 (fun m => { m with brakeRunning := true }) (threeQueued (order .closing .auto))) with
        spacing := sp, glob := { defaultGlobal with ns := ns } }
    let s := q (.armed 1 false) 4
    s.agenda = [] ∧ (s.ch 1).moc.motion = .queued ∧ (s.ch 1).moc.brakeRunning = true ∧
    (s.ch 1).moc.brakeExpiry ≤ s.clock.now ∧ s.startQueue = [2] ++ 1 :: [3] ∧ s.startQueue.Nodup ∧
    (∀ d ∈ [2], (s.ch d).moc.brakeRunning = true) ∧ s.spacingElapsed = true ∧ s.slotCount < s.glob.ns ∧
    (s.ch 1).moc.order = some (order .closing .auto) ∧ s.leadersOf 1 = [] ∧
    (q (.armed 40001 false) 4).spacingElapsed = false ∧
    (q (.armed 1 false) 3).glob.ns ≤ (q (.armed 1 false) 3).slotCount := by decide
theorem ok_ReversalEnds : let s := reversingTo .reversing 501 (some 190000)
    s.calm ∧ s.ready = true ∧ (s.ch 1).cal.populated = true ∧ (s.ch 1).moc.motion = .reversing ∧
    (s.ch 1).hif.phase = some 0 ∧ stepDir 0 1 = some .opening ∧
    (s.ch 1).moc.revTarget = some ((s.ch 1).hif.pos + 1) ∧ (s.ch 1).hif.pos + 1 ≤ 5119 := by
  unfold State.calm; decide
theorem ok_ReversalStalls :
    let s := updMoc 1 (fun m => { m with steps := 1 }) (reversingTo .reversing 501 (some 40001))
    s.calm ∧ (s.ch 1).moc.stall = some 40001 ∧ 40001 ≤ s.clock.now ∧ (s.ch 1).moc.motion = .reversing ∧
    0 < (s.ch 1).moc.steps := by unfold State.calm; decide
theorem ok_SpacingRunOut : let s := queuedWith (order .closing .auto)
    s.agenda = [] ∧ s.startQueue = [] ++ 1 :: [] ∧ s.startQueue.Nodup ∧ s.spacing = .armed 1 false ∧ 1 + 10000 * s.glob.ts ≤ s.clock.now ∧
    s.slotCount < s.glob.ns ∧ (s.ch 1).moc.brakeRunning = false ∧ (s.ch 1).moc.motion = .queued ∧
    (s.ch 1).moc.order = some (order .closing .auto) ∧ atTarget .closing .toEnd (s.ch 1).hif.pos = false ∧
    (s.ch 1).cal.companion = none ∧ s.leadersOf 1 = [] := by decide
/-- The entry ahead is passed over: its brake timer runs. -/
theorem ok_SpacingRunOut_passed :
    let s := { updMoc 2 (fun m => { m with brakeRunning := true }) (threeQueued (order .closing .auto)) with
      spacing := .armed 1 false, glob := { defaultGlobal with ns := 4 } }
    s.startQueue = [2] ++ 1 :: [3] ∧ s.startQueue.Nodup ∧ (∀ d ∈ [2], (s.ch d).moc.brakeRunning = true) ∧
    s.slotCount < s.glob.ns ∧ (s.ch 1).moc.brakeRunning = false := by decide
/-- No slot free: a MOVE on an IDLE channel, and on a QUEUED one in either direction. -/
theorem ok_JoinsTheQueue : let s := threeQueued (order .closing .auto)
    s.ready = true ∧ s.glob.ns ≤ s.slotCount ∧ (∀ e, (s.ch e).moc.motion ≠ .waiting) ∧
    s.refusal 0 4 .opening .auto .localReq = none ∧ (s.ch 4).moc.motion = .idle ∧
    atTarget .opening (normalizeTarget (s.ch 4).cal (s.ch 4).level .opening .notLearning .toEnd) (s.ch 4).hif.pos =
      false ∧
    moveModifier 3 = some (.opening, .auto, .localReq) ∧ s.refusal 0 1 .opening .auto .localReq = none ∧
    (s.ch 1).moc.motion = .queued ∧ s.opens 1 ≠ decide (Dir.opening = .opening) ∧
    s.refusal 0 1 .closing .auto .localReq = none ∧ s.opens 1 = decide (Dir.closing = .opening) := by decide
theorem ok_JoinsTheQueue_table : MotionTable (threeQueued (order .closing .auto)) := by
  unfold MotionTable Channel.inTable OpeningFirst; decide
/-- A MANUAL order at its refresh deadline; a waiting leader and a waiting follower. -/
theorem ok_Deadlines_refresh : let s := driving .closing (order .closing .manual) 500
    s.agenda = [] ∧ s.startQueue = [] ∧ (∀ d, d ≠ 1 → (s.ch d).moc.motion ≠ .waiting) ∧
    (s.ch 1).moc.order = some (order .closing .manual) ∧ (order .closing .manual).mover = .client ∧
    40000 ≤ s.clock.now ∧ (order .closing .manual).mode = .manual ∧
    (order .closing .manual).refresh = some 40000 := by decide
theorem ok_Deadlines_wait : let s := waitingWith .leader (order .opening .auto)
    s.startQueue = [] ∧ (∀ d, d ≠ 1 → (s.ch d).moc.motion ≠ .waiting) ∧ (s.ch 1).moc.motion = .waiting ∧
    (s.ch 1).moc.wait = some 40001 ∧ 40001 ≤ s.clock.now ∧ (s.ch 1).hold = .leader ∧
    ((waitingWith .follower (order .closing .auto)).ch 1).hold = .follower := by decide
/-- Channel 1, the leader of channel 2 with G = 600 and `q`, in `m` with `o` at `pos`; `f` says what the
follower is. -/
def companions (m : Motion) (o : Order) (pos q : Nat) (f : Channel → Channel) : State :=
  { updChan 2 f (updCal 1 (fun r => { r with companion := some 2, gate := 600, requirement := q })
      (driving m o pos)) with spacing := .armed 40001 false }
/-- The follower at `pos` with order `o` in motion `m`. -/
def following (m : Motion) (o : Option Order) (pos : Nat) (k : Channel) : Channel :=
  { k with hif := { k.hif with pos := pos }, moc := { k.moc with motion := m, order := o } }
/-- The leader one step below its gate. -/
def atTheGate (q : Nat) (f : Channel → Channel) : State := companions .opening (order .opening .auto) 599 q f
theorem ok_Gate : let s := atTheGate 300 (following .idle none 300)
    s.calm ∧ s.ready = true ∧ (s.ch 1).cal.populated = true ∧ (s.ch 1).cal.companion = some 2 ∧
    (s.ch 1).moc.motion = .opening ∧ (s.ch 1).moc.order = some (order .opening .auto) ∧
    aboveGate .toEnd (s.ch 1).cal.gate = true ∧ (s.ch 1).hif.phase = some 0 ∧ stepDir 0 1 = some .opening ∧
    (s.ch 1).hif.pos + 1 = ((s.ch 1).cal.gate : Int) ∧ (s.ch 1).cal.gate ≤ 4064 ∧ s.spacingElapsed = false ∧
    (s.ch 2).hif.posValid = true ∧ ((s.ch 1).cal.requirement : Int) ≤ (s.ch 2).hif.pos ∧
    (s.ch 2).moc.order = none := by unfold State.calm; decide
/-- The rows of R147: a follower on its way; IDLE and admitted; IDLE at its soft stop, short of Q; refused;
in FAULT. -/
theorem ok_Gate_rows :
    let onItsWay := atTheGate 300 (following .opening (some (order .opening .auto)) 299)
    let admitted := atTheGate 300 (following .idle none 299)
    let atStop := atTheGate 1000 (following .idle none 988)
    let refused := updAuth 2 (fun a => { a with claims := 2 }) admitted
    let fault := atTheGate 300 (following .fault none 299)
    (onItsWay.calm ∧ ¬ (300 : Int) ≤ (onItsWay.ch 2).hif.pos ∧ (onItsWay.ch 2).moc.motion = .opening ∧
      (onItsWay.ch 2).moc.order = some (order .opening .auto)) ∧
    (admitted.calm ∧ admitted.refusal 0 2 .opening .auto .localReq = none ∧
      atTarget .opening (admitted.normalized 2 (internalOpen 1 (order .opening .auto) 40)).target 299 = false) ∧
    (atStop.calm ∧ ¬ (1000 : Int) ≤ (atStop.ch 2).hif.pos ∧ atStop.refusal 0 2 .opening .auto .localReq = none ∧
      atTarget .opening (atStop.normalized 2 (internalOpen 1 (order .opening .auto) 40)).target 988 = true) ∧
    (refused.calm ∧ refused.refusal 0 2 .opening .auto .localReq ≠ none) ∧
    (fault.calm ∧ (fault.ch 2).moc.motion = .fault) := by unfold State.calm; decide
/-- R151: an internal open that is at its target at once, short of Q, ends the leader's order: outcome 11. -/
theorem test_internal_open_at_its_target :
    ((after (.hallAcceptance 1 1) (atTheGate 1000 (following .idle none 988))).map fun t =>
      ((t.ch 1).moc.motion, (t.link 2).queue.map fun e => (e.chan, e.detail))) =
    some (.idle, [(some 2, 1), (some 2, 0), (some 1, 11)]) := by decide
/-- The follower one step above Q, its leader beyond the gate or of unknown position. -/
theorem ok_Clamp : 
    let s := companions .idle (order .opening .auto) 601 300 (following .closing (some (order .closing .auto)) 301)
    s.calm ∧ s.ready = true ∧ (s.ch 2).cal.populated = true ∧ (s.ch 1).cal.companion = some 2 ∧
    (s.ch 2).moc.motion = .closing ∧ (s.ch 2).moc.order = some (order .closing .auto) ∧
    (s.ch 2).hif.phase = some 0 ∧ stepDir 0 2 = some .closing ∧
    (s.ch 2).hif.pos - 1 = ((s.ch 1).cal.requirement : Int) ∧ (s.ch 1).cal.requirement ≤ 4064 ∧
    ((s.ch 1).cal.gate : Int) < (s.ch 1).hif.pos ∧
    ((updHif 1 (fun h => { h with posValid := false }) s).ch 1).hif.posValid = false := by unfold State.calm; decide
/-- A waiting leader, its follower one step short of Q. -/
theorem ok_LeaderResumes :
    let s := setHold 1 .leader (companions .waiting (order .opening .auto) 600 300
      (following .opening (some (order .opening .auto)) 299))
    s.agenda = [] ∧ s.startQueue = [] ∧ s.ready = true ∧ (s.ch 2).cal.populated = true ∧
    (s.ch 1).cal.companion = some 2 ∧ (∀ d, d ≠ 1 → (s.ch d).moc.motion ≠ .waiting) ∧
    (s.ch 1).moc.motion = .waiting ∧ (s.ch 1).hold = .leader ∧ (s.ch 1).moc.order = some (order .opening .auto) ∧
    (s.ch 2).cal.companion = none ∧ (s.ch 2).moc.motion = .opening ∧
    (s.ch 2).moc.order = some (order .opening .auto) ∧ atTarget .opening .toEnd 300 = false ∧
    (s.ch 2).hif.posValid = true ∧ (s.ch 2).hif.phase = some 0 ∧ stepDir 0 1 = some .opening ∧
    ((s.ch 1).cal.requirement : Int) ≤ (s.ch 2).hif.pos + 1 ∧ (s.ch 2).hif.pos + 1 ≤ 5119 ∧
    s.spacingElapsed = false := by decide
/-- A held follower, its leader one step above G. -/
theorem ok_FollowerResumes :
    let s := setHold 2 .follower (companions .closing (order .closing .auto) 601 300
      (following .waiting (some (order .closing .auto)) 300))
    s.agenda = [] ∧ s.startQueue = [] ∧ s.ready = true ∧ (s.ch 1).cal.populated = true ∧
    (s.ch 1).cal.companion = some 2 ∧ s.leadersOf 2 = [1] ∧ s.leadersOf 1 = [] ∧
    (∀ d, d ≠ 2 → (s.ch d).moc.motion ≠ .waiting) ∧ (s.ch 2).moc.motion = .waiting ∧ (s.ch 2).hold = .follower ∧
    (s.ch 2).moc.order = some (order .closing .auto) ∧ (s.ch 1).moc.motion = .closing ∧
    (s.ch 1).moc.order = some (order .closing .auto) ∧ (s.ch 1).hif.posValid = true ∧
    (s.ch 1).hif.phase = some 0 ∧ stepDir 0 2 = some .closing ∧
    (s.ch 1).hif.pos - 1 = ((s.ch 1).cal.gate : Int) ∧ s.spacingElapsed = false := by decide
theorem ok_WindowSectorStsel : atWork.agenda = [] ∧
    ((with1 fun k => { k with auth := { k.auth with window := some 40001 } }).ch 1).auth.window = some 40001 ∧
    ({ atWork with stb := ⟨.polled, false, 39001⟩ } : State).stb.since + 1000 ≤ atWork.clock.now ∧
    atWork.stb.mode = .direct ∧ atWork.ready = true ∧ (atWork.ch 1).cal.populated = true := by decide
/-- Before READY, on an unpopulated channel, and in both sectors of both modes. -/
theorem ok_StatusLines : State.reset.ready = false ∧
    ((with1 fun k => { k with cal := { k.cal with populated := false } }).ch 1).cal.populated = false ∧
    (∀ b, ({ atWork with stb := ⟨.polled, b, 0⟩ } : State).ready = true ∧
      ({ atWork with stb := ⟨.polled, b, 0⟩ } : State).stb.sectorOne = b) ∧
    (∀ b, ({ atWork with pins := { atWork.pins with stsel := b } } : State).stb.mode = .direct ∧
      ({ atWork with pins := { atWork.pins with stsel := b } } : State).pins.stsel = b) := by decide

/-! ## Witnesses: authority -/

/-- The common hypotheses, and a state for each answer of the order of judgement. -/
theorem ok_MoveIsJudged : atWork.agenda = [] ∧ atWork.ready = true ∧ chanOf 1 = some 1 ∧
    moveModifier 2 = some (.closing, .auto, .localReq) ∧ targetOf 0xFFFF = some .toEnd ∧
    (atWork.ch 1).cal.populated = true ∧ atWork.mayAct 0 1 = true ∧ atWork.hasRight 0 .move = true := by decide
theorem ok_MoveIsJudged_each :
    dropClient ((with1 fun k => { k with auth := { k.auth with lockouts := 2 } }).ch 1).auth.lockouts 0 ≠ 0 ∧
    ((with1 fun k => { k with auth := { k.auth with claims := 1 } }).ch 1).auth.claims ≠ 0 ∧
    (with1 fun k => { k with moc := { k.moc with motion := .fault } }).lockedOut 0 1 = false ∧
    ((with1 fun k => { k with level := .endsKnown }).ch 1).level ≠ .learned ∧
    ((with1 fun k => { k with auth := { k.auth with inhibit := true } }).ch 1).auth.inhibit = true ∧
    ({ atWork with sup := { resetSupply with state := .low } } : State).sup.state ≠ .normal ∧
    ((reversingTo .reversing 600 none).ch 1).moc.order = none := by decide
/-- R119: client 1 asks to close against client 0's MANUAL open at the last moment of its refresh deadline. -/
theorem ok_MoveIsJudged_heldOpen :
    let o := { order .opening .manual with refresh := some 40001 }
    let s := driving .opening o 500
    s.mayAct 1 1 = true ∧ s.hasRight 1 .move = true ∧ dropClient (s.ch 1).auth.lockouts 1 = 0 ∧
    (s.ch 1).auth.claims = 0 ∧ (s.ch 1).moc.motion = .opening ∧ s.calLoaded = true ∧ s.erasing = false ∧
    (s.ch 1).level = .learned ∧ (s.ch 1).moc.order = some o ∧ o.dir = .opening ∧ o.mode = .manual ∧
    o.client ≠ 1 ∧ s.clock.now ≤ 40001 := by decide
theorem ok_MoveClose : atWork.agenda = [] ∧ atWork.ready = true ∧ atWork.calLoaded = true ∧
    atWork.erasing = false ∧ chanOf 1 = some 1 ∧ (atWork.ch 1).cal.populated = true ∧ atWork.mayAct 0 1 = true ∧
    atWork.hasRight 0 .move = true ∧ atWork.lockedOut 0 1 = false ∧ (atWork.ch 1).auth.claims = 0 ∧
    (atWork.ch 1).moc.motion = .idle ∧ (atWork.ch 1).moc.order = none ∧ (atWork.ch 1).moc.brakeRunning = false ∧
    (atWork.ch 1).level = .learned ∧ atWork.sup.state = .normal ∧ atWork.startQueue = [] ∧
    atWork.spacingElapsed = true ∧ atWork.slotCount < atWork.glob.ns ∧ atWork.leadersOf 1 = [] := by decide
/-- An admission that is no refresh, and a refresh. -/
theorem ok_MoveIsAdmitted : atWork.refusal 0 1 .closing .auto .localReq = none ∧
    atWork.isRefresh 0 1 .closing .auto = false ∧
    (driving .closing (order .closing .manual) 500).agenda = [] ∧
    (driving .closing (order .closing .manual) 500).refusal 0 1 .closing .manual .localReq = none ∧
    moveModifier 0 = some (.closing, .manual, .localReq) ∧
    ((driving .closing (order .closing .manual) 500).ch 1).moc.order = some (order .closing .manual) := by decide
/-- R78, R95: an AUTO open, and a close, of client 0 on a channel in each state that holds an order or a reversal. -/
theorem ok_Installation :
    let held := order .closing .auto
    let armed := fun (s : State) => { s with spacing := .armed 40001 false }
    let takes := fun (s : State) (d : Dir) => decide (s.refusal 0 1 d .auto .localReq = none ∧
      s.isRefresh 0 1 d .auto = false ∧ s.agenda = [] ∧ s.startQueue = [] ∧ s.spacingElapsed = false ∧
      (s.ch 1).cal.companion = none ∧ s.leadersOf 1 = [] ∧ ∀ e, e ≠ 1 → (s.ch e).moc.motion ≠ .waiting)
    let closing := armed (driving .closing held 500)
    let reversing := armed (reversingTo .reversing 600 (some 190000))
    (takes closing .closing ∧ (closing.ch 1).moc.motion.drive = some .closing ∧
      (closing.ch 1).moc.order = some held ∧ held.mover = .client) ∧
    (takes closing .opening ∧ (closing.ch 1).moc.motion.drive ≠ some .opening) ∧
    takes (armed (driving .brakingOrder held 500)) .opening ∧ takes (armed (driving .waiting held 500)) .closing ∧
    (takes reversing .opening ∧ (reversing.ch 1).moc.order = none ∧ reversing.inReversal 1 = true ∧
      ∀ g, reversing.group g = none) ∧
    (let braking := armed (reversingTo .brakingPinch 600 none)
     takes braking .opening ∧ braking.inReversal 1 = true ∧ (braking.ch 1).moc.order = none) ∧
    moveModifier 3 = some (.opening, .auto, .localReq) ∧ moveModifier 2 = some (.closing, .auto, .localReq) := by
  decide
/-- With an order and without one. -/
theorem ok_Halt : let s := driving .closing (order .closing .auto) 500
    s.calm ∧ s.ready = true ∧ (s.ch 1).cal.populated = true ∧ s.mayAct 0 1 = true ∧ s.hasRight 0 .move = true ∧
    s.lockedOut 0 1 = false ∧ (s.ch 1).moc.motion ≠ .fault ∧ s.inReversal 1 = false ∧
    (s.ch 1).moc.order = some (order .closing .auto) ∧ (atWork.ch 1).moc.order = none ∧ atWork.calm := by
  unfold State.calm; decide
theorem ok_StopClaim : let s := driving .closing (order .closing .auto) 500
    s.calm ∧ s.ready = true ∧ chanOf 1 = some 1 ∧ (s.ch 1).cal.populated = true ∧ s.mayAct 0 1 = true ∧
    s.hasRight 0 .claim = true ∧ (s.ch 1).moc.motion ≠ .fault ∧ (s.ch 1).moc.order.isSome = true ∧
    ((s.ch 1).moc.order.map Order.mover) = some .client ∧ s.inReversal 1 = false ∧
    (reversingTo .reversing 600 (some 190000)).inReversal 1 = true := by unfold State.calm; decide
/-- Channel 1 driven, channel 2 locked by another client, channel 3 in FAULT, channel 4 unpopulated. -/
def manyChannels : State :=
  updAuth 2 (fun a => { a with lockouts := 2 })
    (updMoc 3 (fun m => { m with motion := .fault, fault := some .quad })
      (updCal 4 (fun r => { r with populated := false }) (driving .closing (order .closing .auto) 500)))
theorem ok_PanelFifteen : manyChannels.calm ∧ manyChannels.ready = true ∧ manyChannels.hasRight 0 .move = true ∧
    manyChannels.hasRight 0 .claim = true ∧
    (∀ c, (manyChannels.ch c).moc.order.map Order.mover = if c = 1 then some .client else none) ∧
    (manyChannels.ch 1).cal.populated = true ∧ manyChannels.mayAct 0 1 = true ∧ manyChannels.lockedOut 0 1 = false ∧
    manyChannels.lockedOut 0 2 = true ∧ (manyChannels.ch 3).moc.motion = .fault ∧
    (manyChannels.ch 4).cal.populated = false := by unfold State.calm; decide
/-- A channel with an order, one in a reversal and one with neither, of panel 15. -/
theorem ok_PanelFifteen_stops : let s := updMoc 5 (fun m => { m with
      motion := .reversing, slot := true, revTarget := some 600, stall := some 190000 }) manyChannels
    s.calm ∧ (s.ch 1).moc.order ≠ none ∧ (s.ch 1).moc.motion.drive ≠ none ∧ s.inReversal 1 = false ∧
    s.inReversal 5 = true ∧ (s.ch 6).moc.order = none ∧ s.inReversal 6 = false ∧ Hears s 0 .moveEnded 1 ∧
    Hears s 0 .reversalEnd 5 ∧ (s.ch 5).cal.populated = true ∧ s.mayAct 0 5 = true := by
  unfold State.calm Hears; decide
theorem ok_Releases : atWork.agenda = [] ∧ atWork.ready = true ∧ chanOf 1 = some 1 ∧
    (atWork.ch 1).moc.motion ≠ .fault ∧ (atWork.ch 1).cal.populated = true ∧ panelMask 6 = some 6 := by decide
/-- Client 1's lockout of channels 1 (client 0's order) and 2. -/
theorem ok_LockoutSet : let s := driving .closing (order .closing .auto) 500
    s.calm ∧ s.ready = true ∧ panelMask 6 = some 6 ∧ s.hasRight 1 .lockout = true ∧
    (∀ c, inMask 6 c = true → (s.ch c).cal.populated = true ∧ s.mayAct 1 c = true ∧ s.lockedOut 1 c = false) ∧
    (∀ c, (s.ch c).moc.order.map Order.mover = if c = 1 then some .client else none) ∧
    inMask 6 1 = true ∧ inMask 6 0 = false ∧ (order .closing .auto).client ≠ 1 := by unfold State.calm; decide
theorem ok_PanelRestart : let s := reversingTo .reversing 600 (some 190000)
    s.calm ∧ s.ready = true ∧ chanOf 1 = some 1 ∧ (s.ch 1).cal.populated = true ∧ s.mayAct 0 1 = true ∧
    s.hasRight 0 .move = true ∧ s.lockedOut 0 1 = false ∧ (s.ch 1).moc.order = none ∧ s.inReversal 1 = true := by
  unfold State.calm; decide
/-- A client that owns the staging buffer, and one that does not. -/
theorem ok_Lapse : let s := { atWork with clock := ⟨1000000, 0, 0, 0⟩, staging := ⟨some 0, 1, []⟩ }
    s.agenda = [] ∧ (s.link 0).lapsed = false ∧ (s.link 0).lastFrame + 1000000 ≤ s.clock.now ∧
    s.staging.owner = some 0 ∧ s.staging.owner ≠ some 1 ∧ (s.link 2).mask.getLsbD 14 = true := by decide

/-! ## Witnesses: groups, learning, calibration -/

theorem ok_GroupMove : atWork.calm ∧ atWork.ready = true ∧ atWork.calLoaded = true ∧ atWork.erasing = false ∧
    panelMask 2 = some 2 ∧ inMask 2 1 = true ∧ (∀ d : Chan, d ≠ 1 → inMask 2 d = false) ∧ (atWork.ch 1).cal.populated = true ∧
    atWork.mayAct 0 1 = true ∧ atWork.hasRight 0 .group = true ∧ atWork.group 0 = none ∧
    (∀ h : Fin 4, h < 0 → atWork.group h ≠ none) ∧ atWork.lockedOut 0 1 = false ∧ (atWork.ch 1).auth.claims = 0 ∧ (atWork.ch 1).moc.motion = .idle ∧
    (atWork.ch 1).moc.order = none ∧ (atWork.ch 1).level = .learned ∧ atWork.sup.state = .normal ∧
    atWork.leadersOf 1 = [] := by unfold State.calm; decide
/-- Entry 0 is taken and 1 is the lowest free one; the serial wraps at 255 and not at 254. -/
theorem ok_GroupMove_entry :
    let s := { setGroup 0 (some ⟨255, 2, .closing, .localReq, Vector.replicate 8 none⟩) atWork with serial := 255 }
    s.calm ∧ s.group 1 = none ∧ (∀ h : Fin 4, h < 1 → s.group h ≠ none) ∧ 255 ≤ s.serial ∧ ¬ 255 ≤ 254 := by
  unfold State.calm; decide
/-- A GROUP MOVE open on a channel in each of its states. -/
theorem ok_GroupMove_states :
    let held := order .closing .auto
    let armed := fun (s : State) => { s with spacing := .armed 40001 false }
    let takes := fun (s : State) (d : Dir) => decide (s.agenda = [] ∧ s.ready = true ∧ s.calLoaded = true ∧
      s.erasing = false ∧ s.hasRight 0 .group = true ∧ s.group 0 = none ∧ s.memberRefusal 0 d .localReq 1 = none ∧
      (s.ch 1).cal.companion = none ∧ s.leadersOf 1 = [] ∧ s.spacingElapsed = false ∧
      (∀ e, e ≠ 1 → (s.ch e).moc.motion ≠ .waiting) ∧
      s.startQueue = if (s.ch 1).moc.motion = .queued then [1] else [])
    let drives := armed (driving .closing held 500)
    let queued := armed (queuedWith held)
    let stop := fun (pos : Int) => normalizeTarget ((drives.ch 1).cal) .learned .opening .notLearning .toEnd =
      .pos 988 ∧ atTarget .opening (.pos 988) pos = true
    groupModifier 1 = some (.opening, .localReq) ∧ panelMask 2 = some 2 ∧ inMask 2 1 = true ∧
    (takes (armed atWork) .opening ∧ (atWork.ch 1).moc.motion = .idle ∧ (atWork.ch 1).moc.order = none) ∧
    stop 988 ∧ ¬ stop 987 ∧ (takes (updHif 1 (fun h => { h with pos := 988 }) (armed atWork)) .opening) ∧
    (takes queued .opening ∧ (queued.ch 1).moc.motion = .queued ∧ (queued.ch 1).moc.order = some held ∧
      held.mover = .client) ∧
    takes (armed (driving .brakingOrder held 500)) .opening ∧
    (takes drives .closing ∧ (drives.ch 1).moc.motion.drive = some .closing) ∧
    (takes drives .opening ∧ (drives.ch 1).moc.motion.drive ≠ some .opening) ∧
    takes (armed (waitingWith .leader held)) .closing ∧
    (takes (armed (reversingTo .reversing 600 (some 190000))) .opening ∧
      (armed (reversingTo .reversing 600 (some 190000))).inReversal 1 = true) := by decide
/-- Channel 2 is claimed and client 0 may not act on channel 3. -/
def twoBarred : State := { updAuth 2 (fun a => { a with claims := 2 }) atWork with
  glob := { defaultGlobal with rights := Vector.replicate 4 ⟨0xF7, 0x1F⟩ } }
/-- Channels 1 to 3: one is admitted, two are SKIPPED. -/
theorem ok_GroupMove_skipped : panelMask 0x0E = some 0x0E ∧ twoBarred.calm ∧
    (∀ d, d ≠ 1 → inMask 0x0E d = true → (twoBarred.ch d).cal.populated = true →
      twoBarred.mayAct 0 d = false ∨ (twoBarred.lockedOut 0 d = false ∧ (twoBarred.ch d).auth.claims ≠ 0)) ∧
    twoBarred.mayAct 0 1 = true ∧ twoBarred.hasRight 0 .group = true := by unfold State.calm; decide
/-- Channels 2 and 3: every member fails its checks. -/
theorem ok_GroupMove_refused : panelMask 0x0C = some 0x0C ∧ groupModifier 0 = some (.closing, .localReq) ∧
    twoBarred.agenda = [] ∧ twoBarred.ready = true ∧ twoBarred.group 0 = none ∧ inMask 0x0C 2 = true ∧
    (∀ g, ({ atWork with groups := Vector.replicate 4 (grouped.group 3) } : State).group g ≠ none) ∧
    (∀ d, d < 2 → inMask 0x0C d = true → (twoBarred.ch d).cal.populated = false) ∧
    twoBarred.memberRefusal 0 .closing .localReq 2 = some .claimed ∧
    (∀ d, inMask 0x0C d = true → twoBarred.memberRefusal 0 .closing .localReq d ≠ none) := by decide
/-- Entry 3 of client 2 with a running member. -/
def grouping : State := updMoc 1 (fun m => { m with
  motion := .closing, slot := true, stall := some 190000
  order := some { order .closing .auto with mover := .group 3, client := 2 } }) grouped
theorem ok_GroupCancel : grouping.calm ∧ grouping.ready = true ∧ grouping.hasRight 2 .group = true ∧
    groupIndex ((0x0307 : Word).extractLsb' 8 8).toNat = some 3 ∧ (grouping.group 3).isSome = true ∧
    (grouping.group 3).map GroupEntry.serial = some ((0x0307 : Word).extractLsb' 0 8).toNat ∧
    (grouping.group 3).map GroupEntry.owner = some 2 ∧ grouping.holdsGroupOrder 3 1 = true ∧
    grouping.holdsGroupOrder 3 2 = false := by unfold State.calm; decide
/-- Entry 3 of client 2 with a running member, a pending one and one that reached its end. -/
def pendingToo : State :=
  { setGroup 3 (some ⟨7, 2, .closing, .localReq, Vector.ofFn fun c =>
      if c = 1 ∨ c = 2 then some .live else if c = 3 then some .reached else none⟩)
      (updMoc 2 (fun m => { m with
        motion := .queued, order := some { order .closing .auto with mover := .group 3, client := 2 } }) grouping) with
    startQueue := [2] }
theorem ok_GroupCancel_pending : pendingToo.ready = true ∧
    (∀ c, (pendingToo.ch c).moc.motion ≠ .waiting) ∧
    (∀ c ∈ pendingToo.startQueue, pendingToo.holdsGroupOrder 3 c = true) ∧
    pendingToo.hasRight 2 .group = true ∧ (pendingToo.ch 2).moc.motion = .queued ∧
    (pendingToo.group 3).map (fun e => (decide (∀ c : Chan, pendingToo.holdsGroupOrder 3 c = true ↔
      e.members[c] = some .live), decide (∀ c : Chan, e.members[c] ≠ some .toJudge))) = some (true, true) ∧
    (pendingToo.link 0).mask.getLsbD 12 = true := by decide
theorem ok_GroupCancel_table : MotionTable pendingToo := by
  unfold MotionTable Channel.inTable OpeningFirst; decide
/-- Every slot taken by other channels: Ns = 3. -/
def allSlotsTaken : State := updMoc 5 (fun m => { m with motion := .brakingPinch, slot := true, revTarget := some 600 })
  (updMoc 6 (fun m => { m with motion := .brakingPinch, slot := true, revTarget := some 600 })
    (updMoc 7 (fun m => { m with motion := .brakingPinch, slot := true, revTarget := some 600 }) atWork))
theorem ok_Learn : allSlotsTaken.calm ∧ allSlotsTaken.ready = true ∧ allSlotsTaken.calLoaded = true ∧
    allSlotsTaken.erasing = false ∧ chanOf 1 = some 1 ∧ (allSlotsTaken.ch 1).cal.populated = true ∧
    allSlotsTaken.mayAct 0 1 = true ∧ allSlotsTaken.hasRight 0 .calibrate = true ∧
    allSlotsTaken.lockedOut 0 1 = false ∧ (allSlotsTaken.ch 1).auth.claims = 0 ∧
    allSlotsTaken.sup.state = .normal ∧ (allSlotsTaken.ch 1).moc.motion = .idle ∧
    (allSlotsTaken.ch 1).moc.order = none ∧ allSlotsTaken.glob.ns ≤ allSlotsTaken.slotCount ∧
    (allSlotsTaken.ch 1).level = .learned ∧ (allSlotsTaken.ch 1).cal.travel = some 1000 ∧
    (allSlotsTaken.ch 1).hif.pos < ((1000 - (allSlotsTaken.ch 1).cal.ms : Nat) : Int) := by unfold State.calm; decide
/-- A learning order of client 0 that stalls now at `pos`, with `mark` set, the bands' counts at `n`. -/
def learning (ph : Phase) (d : Dir) (m : Motion) (pos : Int) (kind : RunKind) (mark : Option LearnFail) (n : Nat) :
    State :=
  updLearning 1 (fun _ => ⟨some kind, some 0, mark⟩)
    (updCtx 1 (fun k => { k with bands := Vector.replicate 127 ⟨8000, n⟩ })
      (driving m { order d .auto with mover := .learn, phase := ph } pos))
/-- The stall of a LEARN OPEN END at the least travel, and one below it. -/
theorem ok_LearnOpenEndStalls : let s := fun pos => learning .openEnd .opening .opening pos .openEnd none 0
    State.calm (s 256) ∧ ((s 256).ch 1).moc.stall = some 40001 ∧ 0 < ((s 256).ch 1).moc.steps ∧
    ((s 256).ch 1).moc.order.map Order.mover = some .learn ∧ 256 ≤ ((s 256).ch 1).hif.pos ∧
    ((s 256).ch 1).learning = ⟨some .openEnd, some 0, none⟩ ∧ ((s 255).ch 1).hif.pos < 256 ∧
    4064 < ((s 4065).ch 1).hif.pos := by unfold State.calm; decide
/-- The closed end of a closing half with a mark, with every band covered, and with none. -/
theorem ok_LearnReferenceEnds : let s := learning .refClosing .closing .closing 23 .reference
    State.calm (s none 8) ∧ ((s none 8).ch 1).moc.motion = .closing ∧ ((s none 8).ch 1).level ≠ .noneKnown ∧
    zoneKindAt ((s none 8).ch 1).cal.zones ((s none 8).ch 1).hif.pos = some .seal ∧
    ((s none 8).ch 1).hif.pos.natAbs ≤ 24 ∧ ((s none 8).ch 1).cal.travel = some 1000 ∧
    (coveredProfile 1000 ((s none 8).ch 1).ctx).isSome = true ∧
    coveredProfile 1000 ((s none 7).ch 1).ctx = none ∧
    ((s (some .range) 8).ch 1).learning.mark = some .range ∧ LearnFail.range ≠ .interrupted := by
  unfold State.calm; decide
/-- R157: a closing half that stalls 25 below the closed end. -/
theorem ok_LearnShift : let s := learning .refClosing .closing .closing (-25) .reference
    State.calm (s none 8) ∧ ((s none 8).ch 1).level = .learned ∧ 24 < ((s none 8).ch 1).hif.pos.natAbs ∧
    zoneKindAt ((s none 8).ch 1).cal.zones ((s none 8).ch 1).hif.pos = some .seal ∧
    ((s (some .supply) 8).ch 1).learning = ⟨some .reference, some 0, some .supply⟩ := by unfold State.calm; decide
/-- R167: SHIFT, bits 15 to 12 of the detail, of a REFERENCE run, bit 8; and HALTED as an outcome of INTERRUPTED. -/
theorem test_learn_fails :
    ((after (.stall 1) (learning .refClosing .closing .closing (-25) .reference none 8)).map fun t =>
      ((t.link 2).queue.filter (·.kind = .learnFailed)).map Event.detail) = some [0x2100] ∧
    ((after (.halt 0 1 0 0) (learning .refOpening .opening .opening 500 .reference none 8)).map fun t =>
      ((t.link 2).queue.filter (·.kind = .learnFailed)).map Event.detail) = some [0x4104] := by decide
/-- The opening half of a LEARN REFERENCE run that stalls 24 below Lt, with the spacing timer running. -/
def openingHalf : State := { learning .refOpening .opening .opening 976 .reference none 8 with
  spacing := .armed 40001 false, sup := { resetSupply with settling := 3 } }
/-- R167: a run that HALT, STOP CLAIM, LOCKOUT SET, MOVE, PANEL RESTART or the entry into CRANK ends. -/
theorem ok_LearnStops : let s := openingHalf
    s.agenda = [] ∧ (∀ d ∈ s.startQueue, d = 1) ∧ (∀ d, d ≠ 1 → (s.ch d).moc.motion ≠ .waiting) ∧
    s.ready = true ∧ (s.ch 1).cal.populated = true ∧ (s.ch 1).moc.motion ≠ .fault ∧ s.inReversal 1 = false ∧
    (s.ch 1).moc.order.map (fun o => (o.mover, o.client)) = some (.learn, 0) ∧
    (s.ch 1).learning = ⟨some .reference, some 0, none⟩ ∧ chanOf 1 = some 1 ∧ s.mayAct 2 1 = true ∧
    s.lockedOut 2 1 = false ∧ s.hasRight 2 .move = true ∧ s.hasRight 2 .claim = true ∧
    s.hasRight 2 .lockout = true ∧ panelMask 2 = some (1 <<< (1 : Chan).val) ∧
    s.refusal 2 1 .closing .auto .localReq = none ∧ s.spacingElapsed = false ∧ (s.ch 1).cal.companion = none ∧
    s.leadersOf 1 = [] ∧ 3 ≤ s.sup.settling ∧ s.sup.state ≠ .crank ∧
    ∀ d, d ≠ 1 → s.atRest d = true ∧ (s.ch d).moc.order = none := by decide
/-- R78: that channel is in a row of the table of section 5.1. -/
theorem ok_LearnStops_move : (openingHalf.ch 1).inTable ((1 : Chan) ∈ openingHalf.startQueue) := by
  unfold Channel.inTable; decide
/-- R167: a run that a stall, the third no-step start or the wait deadline ends. -/
theorem ok_LearnStops_timers :
    let close := learning .refClosing .closing .closing 24 .reference (some .supply) 8
    let stuck := updMoc 1 (fun m => { m with steps := 0, noStep := 2 }) openingHalf
    let waits := setHold 1 .leader (updMoc 1 (fun m => { m with
      motion := .waiting, slot := false, stall := none, wait := some 40001 }) openingHalf)
    ((openingHalf.ch 1).moc.stall = some 40001 ∧ 40001 ≤ openingHalf.clock.now ∧ 0 < (openingHalf.ch 1).moc.steps ∧
      (openingHalf.ch 1).moc.motion = .opening ∧
      (openingHalf.ch 1).moc.order.map Order.phase = some .refOpening ∧
      (openingHalf.ch 1).cal.travel = some 1000 ∧ ((1000 : Nat) : Int) - 24 ≤ (openingHalf.ch 1).hif.pos) ∧
    ((close.ch 1).moc.motion = .closing ∧ (close.ch 1).level ≠ .noneKnown ∧
      zoneKindAt (close.ch 1).cal.zones (close.ch 1).hif.pos ≠ some .seal) ∧
    ((stuck.ch 1).moc.steps = 0 ∧ (stuck.ch 1).moc.noStep = 2) ∧
    ((waits.ch 1).moc.motion = .waiting ∧ (waits.ch 1).moc.wait = some 40001 ∧ (waits.ch 1).hold = .leader) := by decide
theorem ok_Forget : atWork.agenda = [] ∧ atWork.ready = true ∧ atWork.calLoaded = true ∧ atWork.erasing = false ∧
    chanOf 1 = some 1 ∧ (atWork.ch 1).cal.populated = true ∧ atWork.mayAct 0 1 = true ∧
    atWork.hasRight 0 .calibrate = true ∧ (atWork.ch 1).moc.motion = .idle ∧
    (atWork.ch 1).cal.travel = some 1000 ∧ (atWork.ch 1).level = .learned ∧
    ((with1 fun k => { k with level := .closedKnown }).ch 1).level = .closedKnown := by decide
/-- Locked; moving; at rest with a value at its bound, inside and outside; a read-only selector. -/
theorem ok_SetParameter : atWork.agenda = [] ∧ atWork.ready = true ∧ atWork.calLoaded = true ∧
    atWork.erasing = false ∧ chanOf 1 = some 1 ∧ (atWork.ch 1).cal.populated = true ∧
    atWork.hasRight 0 .calibrate = true ∧ atWork.glob.locked = false ∧ atWork.atRest 1 = true ∧
    (1 : BitVec 4).toNat = 1 ∧ (4 : Word).toNat = 4 ∧ ¬ 4 ≤ (3 : Word).toNat ∧ 14 ≤ (14 : BitVec 4).toNat ∧
    ({ atWork with glob := { defaultGlobal with locked := true } } : State).glob.locked = true ∧
    (driving .closing (order .closing .auto) 500).atRest 1 = false := by decide
/-- R61, R62: a companion that may be named and one that leads; a populated flag that may fall, one that may not, and
one that rises. -/
theorem ok_SetParameter_links :
    let s := updCal 1 (fun r => { r with companion := some 2 }) atWork
    (∀ d, (s.ch d).moc.motion ≠ .waiting) ∧ (s.ch 3).cal.companion = none ∧ (s.ch 1).cal.companion ≠ none ∧
    (∀ q : Chan, q ≠ 0 → (s.ch q).cal.companion ≠ some 0) ∧ (s.ch 0).cal.companion = none ∧
    ((with1 fun k => { k with cal := { k.cal with populated := false } }).ch 1).cal.populated = false := by decide
/-- The rights of client 3 with and without CALIBRATE, and of client 0. -/
theorem ok_Rights : atWork.agenda = [] ∧ atWork.ready = true ∧ atWork.calLoaded = true ∧ atWork.erasing = false ∧
    atWork.glob.locked = false ∧ atWork.hasRight 0 .calibrate = true ∧ (6 : BitVec 4).toNat = 3 + (3 : Client).val ∧
    (0xFF0F : Word).extractLsb' 5 3 = 0 ∧ (0xFF0F : Word).getLsbD 4 = false ∧ (0xFF1F : Word).getLsbD 4 = true ∧
    (3 : BitVec 4).toNat = 3 + (0 : Client).val := by decide
/-- Ns with every channel at rest and with one moving; Ts while one moves; masks that change channel 1, that R62
refuses, and with a high byte. -/
theorem ok_GlobalParameters :
    let moving := driving .closing (order .closing .auto) 500
    (∀ c, atWork.atRest c = true) ∧ moving.atRest 1 = false ∧ moving.startQueue = [] ∧
    moving.glob.locked = false ∧ moving.hasRight 0 .calibrate = true ∧ (20 : Word).toNat = 20 ∧
    panelMask 0x00FD = some 0xFD ∧ (atWork.ch 1).cal.populated ≠ inMask 0xFD 1 ∧
    (∀ c, c ≠ 1 → (atWork.ch c).cal.populated = inMask 0xFD c) ∧ (∀ d, (atWork.ch d).moc.motion ≠ .waiting) ∧
    (∀ q : Chan, (atWork.ch q).cal.companion = none) ∧ (0x01FD : Word).extractLsb' 8 8 ≠ 0 ∧
    ((updCal 1 (fun r => { r with companion := some 2 }) atWork).ch 1).cal.companion ≠ none ∧
    7 ≤ (7 : BitVec 4).toNat := by decide

/-- Client 0 owns a staging buffer bound to channel 1 that holds one record. -/
def staged : State := { atWork with staging := ⟨some 0, 1, [⟨0, .guard, 80, 600, 400⟩]⟩ }
theorem ok_ZoneBound : staged.agenda = [] ∧ staged.ready = true ∧ chanOf 2 = some 2 ∧
    staged.zoneRefusal 0 2 false = none ∧ (3 : BitVec 4).toNat < 4 ∧ staged.staging.owner = some 0 ∧
    staged.staging.bound ≠ 2 ∧ atWork.staging.owner = none ∧ atWork.zoneRefusal 0 2 false = none := by decide
theorem ok_ZoneBuild : staged.zoneRefusal 0 1 false = none ∧ staged.staging.owner = some 0 ∧
    staged.staging.bound = 1 ∧ (4063 : Word).toNat ≤ 4063 ∧ staged.staging.records.length < 6 ∧
    staged.staging.records = [] ++ [⟨0, .guard, 80, 600, 400⟩] ∧ zonesValid staged.staging.records = true ∧
    zonesValid [⟨1, .guard, 80, 600, 400⟩] = false ∧ 4063 < (4064 : Word).toNat ∧ 2 < (3 : Word).toNat ∧
    6 ≤ (List.replicate 6 (⟨0, .guard, 80, 600, 400⟩ : Zone)).length ∧
    ({ staged with staging := ⟨some 0, 1, []⟩ } : State).staging.records = [] := by decide
/-- R69, the bounds: starts that rise and starts that stand, T at its ends and outside, six records and seven. -/
theorem test_zone_lists : zonesValid [⟨0, .guard, 16, 64, 64⟩, ⟨1, .seal, 2048, 65535, 4095⟩] = true ∧
    zonesValid [⟨0, .guard, 80, 600, 400⟩, ⟨0, .guard, 80, 600, 400⟩] = false ∧
    zonesValid [⟨0, .watch, 15, 600, 400⟩] = false ∧ zonesValid [] = false ∧
    zonesValid ((List.range 6).map fun i => ⟨i, .guard, 80, 600, 400⟩) = true ∧
    zonesValid ((List.range 7).map fun i => ⟨i, .guard, 80, 600, 400⟩) = false := by decide
/-- R64: each check, with those ahead of it met. -/
theorem ok_ZoneChecks :
    chanOf 8 = none ∧ (1 : BitVec 4) ≠ 0 ∧ 3 < (4 : BitVec 4).toNat ∧ (3 : BitVec 4).toNat < 4 ∧ chanOf 1 = some 1 ∧
    ((with1 fun k => { k with cal := { k.cal with populated := false } }).ch 1).cal.populated = false ∧
    (staged.ch 1).cal.populated = true ∧ staged.hasRight 0 .calibrate = true ∧ staged.glob.locked = false ∧
    ({ staged with glob := { defaultGlobal with locked := true } } : State).hasRight 0 .calibrate = true ∧
    ({ staged with nvc := { blankImage with busy := some ⟨.erase, 0, 60000⟩ } } : State).erasing = true ∧
    ({ staged with calLoaded := false } : State).calLoaded = false ∧ staged.calLoaded = true ∧
    staged.erasing = false ∧ staged.staging.owner = some 0 ∧ (0 : Client) ≠ 1 ∧
    staged.hasRight 1 .calibrate = true := by decide
/-- An owner that a rights write has left without CALIBRATE. -/
theorem ok_ZoneWithoutRight :
    let s := { staged with glob := { defaultGlobal with rights := Vector.replicate 4 ⟨0xFF, 0x0F⟩ } }
    s.agenda = [] ∧ s.ready = true ∧ s.calLoaded = true ∧ s.erasing = false ∧ s.glob.locked = false ∧
    chanOf 1 = some 1 ∧ (s.ch 1).cal.populated = true ∧ s.hasRight 0 .calibrate = false ∧
    s.staging.owner = some 0 ∧ s.staging.bound = 1 := by decide
theorem ok_Adaptation : 0 < 32 ∧ (⟨48000, 32⟩ : BandSum).count = 32 ∧
    ¬ 1500 / 4 < (((48000 / 32 : Nat) : Int) - (1500 : Nat)).natAbs ∧ (⟨0, 31⟩ : BandSum).count ≠ 32 ∧
    1000 / 4 < (((48000 / 32 : Nat) : Int) - (1000 : Nat)).natAbs := by decide
/-- R72: a closed end whose run qualifies, and one with a fifth gap. -/
theorem ok_Adaptation_stall :
    let s := fun gaps => updCtx 1 (fun k => { k with
      qualified := true, gapCount := gaps, bands := Vector.replicate 127 ⟨33000, 32⟩ })
      (driving .closing (order .closing .auto) 23)
    State.calm (s 4) ∧ ((s 4).ch 1).moc.stall = some 40001 ∧ ((s 4).ch 1).moc.motion = .closing ∧
    ((s 4).ch 1).cal.profile ≠ none ∧ ((s 4).ch 1).ctx.gapCount ≤ 4 ∧ ((s 4).ch 1).ctx.joltCount ≤ 4 ∧
    ¬ ((s 5).ch 1).ctx.gapCount ≤ 4 ∧ adaptRecord ((s 4).ch 1).cal ((s 4).ch 1).ctx ≠ ((s 4).ch 1).cal ∧
    learnedCal.travel = some 1000 ∧ learnedCal.profile = some (List.replicate 32 1000) ∧
    (List.replicate 32 1000).length ≤ 127 := by unfold State.calm; decide
/-- NVC free with the lock clear, with it set, and NVC busy. -/
theorem ok_StoreAndLock : atWork.agenda = [] ∧ atWork.ready = true ∧ atWork.hasRight 0 .calibrate = true ∧
    atWork.nvc.busy = none ∧ chanOf 1 = some 1 ∧ atWork.glob.locked = false ∧
    ({ atWork with glob := { defaultGlobal with locked := true } } : State).glob.locked = true ∧
    ({ atWork with nvc := { blankImage with busy := some ⟨.erase, 0, 60000⟩ } } : State).nvc.busy ≠ none := by decide
theorem ok_StoreCompletes :
    let s := { atWork with nvc := { blankImage with busy := some ⟨.storeChannel 1 learnedCal, 5001, 40001⟩ } }
    s.agenda = [] ∧ s.nvc.busy = some ⟨.storeChannel 1 learnedCal, 5001, 40001⟩ ∧ 40001 ≤ s.clock.now ∧
    (s.link 0).mask.getLsbD 13 = true := by decide
/-- The writes of the global record: a STORE and a CAL LOCK. -/
theorem ok_StoreCompletes_global : let job := fun j => { atWork with nvc := { blankImage with busy := some ⟨j, 30001, 40001⟩ } }
    State.nvc (job (.storeGlobal defaultGlobal)) = { blankImage with
      busy := some ⟨.storeGlobal defaultGlobal, 30001, 40001⟩ } ∧
    (job (.lockWrite defaultGlobal)).nvc.busy = some ⟨.lockWrite defaultGlobal, 30001, 40001⟩ ∧
    40001 ≤ atWork.clock.now ∧ atWork.agenda = [] := by decide
/-- At the request, and at the completion 60 ms later. -/
theorem ok_CalErase : atWork.calm ∧ atWork.ready = true ∧ atWork.hasRight 0 .calibrate = true ∧
    atWork.nvc.busy = none ∧ (∀ c, atWork.atRest c = true) ∧ (atWork.ch 1).cal.populated = true ∧
    (atWork.ch 1).level = .learned ∧
    (let u := { atWork with
      clock := ⟨100001, 0, 0, 0⟩, nvc := { blankImage with busy := some ⟨.erase, 40001, 100001⟩ } }
     u.agenda = [] ∧ u.nvc.busy = some ⟨.erase, atWork.clock.now, atWork.clock.now + 60000⟩ ∧
     atWork.clock.now + 60000 ≤ u.clock.now) := by unfold State.calm; decide

end Sys2Proof.Tests
end

section
/-! The decisions at the end of a computed step (R37, R38, R46): what each test answers, what the common
part of a step leaves of S and A, and the order of the decisions. -/

namespace Sys2Proof.Machine

/-! ## The decision of a FULL step, by the kind of the zone (R46) -/

section
variable {z : Zone} (k : Nat) (blanked : Bool) {s : Int} {a : Nat}

theorem fullDecision_seal (hk : z.kind = .seal) : fullDecision (some z) k blanked s a = none := by
  simp only [fullDecision, hk]

theorem fullDecision_watch (hk : z.kind = .watch) :
    fullDecision (some z) k blanked s a = if (z.h : Int) ≤ s then some ⟨.hard, s⟩ else none := by
  simp only [fullDecision, hk]

theorem fullDecision_guard (hk : z.kind = .guard) :
    fullDecision (some z) k blanked s a =
      if (z.h : Int) ≤ s then some ⟨.hard, s⟩
      else if blanked = false ∧ scaledE z.e k ≤ a then some ⟨.accumulated, s⟩ else none := by
  simp [fullDecision, hk]

/-- R46: HARD comes first, in a GUARD zone as in a WATCH zone. -/
theorem fullDecision_hard (hk : z.kind ≠ .seal) (hs : (z.h : Int) ≤ s) :
    fullDecision (some z) k blanked s a = some ⟨.hard, s⟩ := by
  match hz : z.kind with
  | .guard => rw [fullDecision_guard k blanked hz, if_pos hs]
  | .watch => rw [fullDecision_watch k blanked hz, if_pos hs]
  | .seal => exact absurd hz hk

theorem fullDecision_watch_below (hk : z.kind = .watch) (hs : s < z.h) :
    fullDecision (some z) k blanked s a = none := by
  rw [fullDecision_watch k blanked hk, if_neg (not_le.mpr hs)]

/-- R46: below H, a GUARD zone leaves the ACCUMULATED test alone. -/
theorem fullDecision_guard_below (hk : z.kind = .guard) (hs : s < z.h) :
    fullDecision (some z) k blanked s a =
      if blanked = false ∧ scaledE z.e k ≤ a then some ⟨.accumulated, s⟩ else none := by
  rw [fullDecision_guard k blanked hk, if_neg (not_le.mpr hs)]

end

/-! ## The decision of an ABSOLUTE step (R37) -/

section
variable {lvl : Level} {kind : Option ZoneKind} {pc limit : Nat}

theorem absoluteDecision_at_limit (h : lvl = .noneKnown ∨ kind ≠ some .seal) (hpc : limit ≤ pc) :
    absoluteDecision lvl kind pc limit = some ⟨.absolute, 0⟩ := if_pos ⟨h, hpc⟩

theorem absoluteDecision_below_limit (hpc : pc < limit) : absoluteDecision lvl kind pc limit = none :=
  if_neg fun h => absurd h.2 (not_le.mpr hpc)

theorem absoluteDecision_seal (h : lvl ≠ .noneKnown) : absoluteDecision lvl (some .seal) pc limit = none :=
  if_neg fun ⟨hz, _⟩ => hz.elim h fun hs => hs rfl

end

/-! ## The zone in force (R38) -/

theorem zoneOf_noneKnown {t : Take} (h : t.level = .noneKnown) : zoneOf t = none := if_pos h

theorem zoneOf_known {t : Take} (h : t.level ≠ .noneKnown) :
    zoneOf t = zoneAt t.cal.zones t.record.pos := if_neg h

/-! ## S and A of a computed step -/

@[simp] theorem commonStep_smoothed (t : Take) (pc : Nat) (k : LoadContext) :
    (commonStep t pc k).smoothed = k.smoothed := rfl
@[simp] theorem commonStep_excess (t : Take) (pc : Nat) (k : LoadContext) :
    (commonStep t pc k).excess = k.excess := rfl
@[simp] theorem markDecided_smoothed (d : Option Decision) (k : LoadContext) :
    (markDecided d k).smoothed = k.smoothed := by unfold markDecided; split <;> rfl
@[simp] theorem markDecided_excess (d : Option Decision) (k : LoadContext) :
    (markDecided d k).excess = k.excess := by unfold markDecided; split <;> rfl

section
variable {t : Take} {k : LoadContext}

theorem computedStep_of_full (h : isFull t k = true) :
    let pc := compensate (period t.record.stamp k.tPrev) t.record.reading
    let k' := fullStep t pc ((reference t.cal t.record.pos).getD 0) k
    let d := fullDecision (zoneOf t) t.k (isBlanked t k) k'.smoothed k'.excess
    computedStep t k = (markDecided d (commonStep t pc k'), d) := if_pos h

theorem computedStep_of_absolute (h : isFull t k = false) :
    let pc := compensate (period t.record.stamp k.tPrev) t.record.reading
    let d := absoluteDecision t.level ((zoneOf t).map Zone.kind) pc (absoluteLimit t.cal.ru t.k)
    computedStep t k = (markDecided d (commonStep t pc k), d) := if_neg (by simp [h])

/-- R46: a FULL step is decided by the S and A that it leaves in the context. -/
theorem computedStep_decision_of_full (h : isFull t k = true) :
    (computedStep t k).2 = fullDecision (zoneOf t) t.k (isBlanked t k)
      (computedStep t k).1.smoothed (computedStep t k).1.excess := by
  rw [computedStep_of_full h]
  simp only [markDecided_smoothed, markDecided_excess, commonStep_smoothed, commonStep_excess]

/-- R46: an ABSOLUTE step is decided by R37 alone. -/
theorem computedStep_decision_of_absolute (h : isFull t k = false) :
    (computedStep t k).2 = absoluteDecision t.level ((zoneOf t).map Zone.kind)
      (compensate (period t.record.stamp k.tPrev) t.record.reading) (absoluteLimit t.cal.ru t.k) := by
  rw [computedStep_of_absolute h]

end

/-- Settles O31: each clause is the lemma on its test, by the kind of the zone and the regime of the step. -/
theorem decisionsInOrder : Obligations.DecisionsInOrder := by
  intro z k blanked sm a
  refine ⟨fullDecision_seal k blanked, fullDecision_hard k blanked, fun hk hs hb ha => ?accumulated,
    fun hk hs hno => ?guardNone, fullDecision_watch_below k blanked, fun t c =>
    ⟨computedStep_decision_of_full, computedStep_decision_of_absolute, zoneOf_noneKnown, zoneOf_known,
      fun lvl kind pc ru j =>
        ⟨absoluteDecision_at_limit, absoluteDecision_below_limit, absoluteDecision_seal⟩⟩⟩
  case accumulated =>
    rw [fullDecision_guard_below k blanked hk hs, if_pos ⟨hb, ha⟩]
  case guardNone =>
    rw [fullDecision_guard_below k blanked hk hs, if_neg]
    rintro ⟨hb, ha⟩
    have hbelow : a < scaledE z.e k := hno.resolve_left (by simp [hb])
    exact absurd ha (not_le.mpr hbelow)

end Sys2Proof.Machine
end

section
/-! The ZONE requests once the checks of R64 are passed: what each answers when the requester does not own the
buffer bound to the channel it names (R66). -/

namespace Sys2Proof.Machine

section
variable {x : Client} {c : Chan} {s : State}

/-! ## Admitting a ZONE request (R64, R175) -/

/-- R175: from READY on, a request is routed to its owner. -/
theorem routed_of_ready {body : State → Answer} (h : s.ready = true) : routed body s = body s := if_pos h

/-- Receiving the frame changes none of what the checks of R64 look at. -/
@[simp] theorem zoneRefusal_received (x y : Client) (c : Chan) (malformed : Bool) (s : State) :
    (received x s).zoneRefusal y c malformed = s.zoneRefusal y c malformed := rfl

theorem zoneRequest_of_admitted {p : BitVec 4} {malformed : Bool} {body : Chan → State → Answer}
    (hp : chanOf p = some c) (hz : s.zoneRefusal x c malformed = none) :
    zoneRequest x p malformed body s = body c s := by
  simp only [zoneRequest, hp, hz]

/-- R64: a well-formed ZONE request that passes the checks is served by its own rule. -/
theorem serve_zoneRequest {p : BitVec 4} {malformed : Bool} {body : Chan → State → Answer}
    (hr : s.ready = true) (hp : chanOf p = some c) (hz : s.zoneRefusal x c false = none)
    (hm : malformed = false) :
    serve x (routed (zoneRequest x p malformed body)) s = serve x (body c) s := by
  have hbody : routed (zoneRequest x p malformed body) (received x s) = body c (received x s) := by
    rw [routed_of_ready (by rw [received_ready, hr]), zoneRequest_of_admitted hp (by rw [zoneRefusal_received, hm, hz])]
  rw [serve_eq, serve_eq, hbody]

section
variable {p : BitVec 4} (hr : s.ready = true) (hp : chanOf p = some c) (hz : s.zoneRefusal x c false = none)
include hr hp hz

theorem exec_zonePutStart (a : Word) :
    exec (.zonePutStart x p 0 a) s = serve x (zonePutStart x a.toNat c) s := serve_zoneRequest hr hp hz rfl

theorem exec_zonePutField {m : BitVec 4} (hm : m.toNat < 4) (a : Word) :
    exec (.zonePutField x p m a) s = serve x (zonePutField x m.toNat a c) s :=
  serve_zoneRequest hr hp hz (decide_eq_false (not_le.mpr hm))

theorem exec_zoneCommit : exec (.zoneCommit x p 0 0) s = serve x (zoneCommit x c) s :=
  serve_zoneRequest hr hp hz rfl

theorem exec_zoneAbandon : exec (.zoneAbandon x p 0 0) s = serve x (zoneAbandon x c) s :=
  serve_zoneRequest hr hp hz rfl

end

/-- A request whose owner answers `r` and `d` and keeps the state. -/
theorem serve_of_answer {body : State → Answer} {r : Result} {d : Word} (ha : s.agenda = [])
    (h : body (received x s) = ⟨r, d, received x s⟩) :
    serve x body s = .next (setReply x r d (received x s)) := by
  rw [serve_unchanged ha (by rw [h]), h]

/-! ## The owner and the bound channel (R66) -/

theorem ownsStaging_iff : s.ownsStaging x c = true ↔ s.staging.owner = some x ∧ s.staging.bound = c := by
  simp [State.ownsStaging]

theorem not_ownsStaging_of_bound_ne (h : s.staging.bound ≠ c) : s.ownsStaging x c = false :=
  Bool.eq_false_iff.mpr fun how => h (ownsStaging_iff.mp how).2

theorem not_ownsStaging_of_no_owner (h : s.staging.owner = none) : s.ownsStaging x c = false :=
  Bool.eq_false_iff.mpr fun how => by simpa [h] using (ownsStaging_iff.mp how).1

theorem zonePutStart_of_not_owns (start : Nat) (h : s.ownsStaging x c = false) :
    zonePutStart x start c s = refuse .badArgument s := if_pos (.inl h)

theorem zonePutField_of_not_owns (n : Nat) (a : Word) (h : s.ownsStaging x c = false) :
    zonePutField x n a c s = refuse .badArgument s := if_neg (by simp [h])

theorem zoneCommit_of_not_owns (h : s.ownsStaging x c = false) :
    zoneCommit x c s = refuse .badArgument s := if_neg (by simp [h])

/-- R66: of an owned buffer, ABANDON too is refused to one that does not own it on the channel named. -/
theorem zoneAbandon_of_not_owns (howned : s.staging.owner ≠ none) (h : s.ownsStaging x c = false) :
    zoneAbandon x c s = refuse .badArgument s := by
  rw [zoneAbandon, if_neg howned, if_neg (by simp [h])]

/-- R66: with no owner set ABANDON has nothing to do. -/
theorem zoneAbandon_of_no_owner (h : s.staging.owner = none) : zoneAbandon x c s = ⟨.done, 0, s⟩ := if_pos h

end

/-- Settles O55: an admitted ZONE request is its own rule's answer to the received state, whose buffer is the
one that stood; each rule asks whether the requester owns it on the channel named, ABANDON after asking for
an owner at all. -/
theorem zoneRequestsNameTheBoundChannel : Obligations.ZoneRequestsNameTheBoundChannel := by
  intro s x p m a c ha hr hp hz hm
  refine ⟨fun hnot => ?building, fun howner hbound => ?abandonOther, fun hnone => ?abandonUnowned⟩
  case building =>
    have hno : (received x s).ownsStaging x c = false :=
      hnot.elim (fun ⟨_, hbound⟩ => not_ownsStaging_of_bound_ne hbound) not_ownsStaging_of_no_owner
    refine ⟨?putStart, ?putField, ?commit⟩
    case putStart =>
      rw [exec_zonePutStart hr hp hz, serve_of_answer ha (zonePutStart_of_not_owns _ hno)]
    case putField =>
      rw [exec_zonePutField hr hp hz hm, serve_of_answer ha (zonePutField_of_not_owns _ _ hno)]
    case commit =>
      rw [exec_zoneCommit hr hp hz, serve_of_answer ha (zoneCommit_of_not_owns hno)]
  case abandonOther =>
    have howned : (received x s).staging.owner ≠ none := by simp [howner]
    have hno : (received x s).ownsStaging x c = false := not_ownsStaging_of_bound_ne hbound
    rw [exec_zoneAbandon hr hp hz, serve_of_answer ha (zoneAbandon_of_not_owns howned hno)]
  case abandonUnowned =>
    rw [exec_zoneAbandon hr hp hz, serve_of_answer ha (zoneAbandon_of_no_owner hnone)]

end Sys2Proof.Machine
end

section
/-! Reply frames and CLI's own two requests: the bytes of a sealed frame (R169, R171), the codes of the results
(R174), and what NOP and IDENTIFY answer (R178). -/

/-! ## The bytes of a frame (R169, R171) -/

namespace Sys2Proof

section
variable (b1 b2 b3 b4 b5 : Byte)

-- Byte `n` is found by dropping the bytes after it, one append at a time.

@[simp] theorem frameByte_one_frameOfBytes : frameByte 1 (frameOfBytes b1 b2 b3 b4 b5) = b1 := by
  rw [frameByte, frameOfBytes]
  iterate 3 rw [BitVec.extractLsb'_append_eq_of_le (by decide)]
  exact BitVec.extractLsb'_append_eq_left

@[simp] theorem frameByte_two_frameOfBytes : frameByte 2 (frameOfBytes b1 b2 b3 b4 b5) = b2 := by
  rw [frameByte, frameOfBytes]
  iterate 3 rw [BitVec.extractLsb'_append_eq_of_le (by decide)]
  exact BitVec.extractLsb'_append_eq_right

@[simp] theorem frameByte_three_frameOfBytes : frameByte 3 (frameOfBytes b1 b2 b3 b4 b5) = b3 := by
  rw [frameByte, frameOfBytes]
  iterate 2 rw [BitVec.extractLsb'_append_eq_of_le (by decide)]
  exact BitVec.extractLsb'_append_eq_right

@[simp] theorem frameByte_four_frameOfBytes : frameByte 4 (frameOfBytes b1 b2 b3 b4 b5) = b4 := by
  rw [frameByte, frameOfBytes, BitVec.extractLsb'_append_eq_of_le (by decide), BitVec.extractLsb'_append_eq_right]

@[simp] theorem frameByte_five_frameOfBytes : frameByte 5 (frameOfBytes b1 b2 b3 b4 b5) = b5 := by
  rw [frameByte, frameOfBytes, BitVec.extractLsb'_append_eq_right]

/-- R171: adding the check byte to the sum of the four bytes before it gives 0. -/
theorem sum_add_checkByte : b1 + b2 + b3 + b4 + checkByte b1 b2 b3 b4 = 0 := add_sub_cancel ..

theorem frameSumOk_sealFrame : frameSumOk (sealFrame b1 b2 b3 b4) = true := by
  simp [frameSumOk, sealFrame, sum_add_checkByte]

end

end Sys2Proof

namespace Sys2Proof.Machine

/-- Settles O14: a reply frame is a sealed frame of the four bytes, its second the code that the table of R174
gives the result. -/
theorem replyFramesAreLaidOut : Obligations.ReplyFramesAreLaidOut := by
  intro st r d
  refine ⟨frameByte_one_frameOfBytes .., ?code, frameByte_three_frameOfBytes .., frameByte_four_frameOfBytes ..,
    frameSumOk_sealFrame ..⟩
  case code =>
    rw [replyFrame, sealFrame, frameByte_two_frameOfBytes]
    cases r <;> rfl

/-! ## NOP and IDENTIFY (R178) -/

section
variable {x : Client} {s : State}

theorem exec_nop (ha : s.agenda = []) (p m : BitVec 4) (a : Word) :
    exec (.nop x p m a) s = .next (setReply x .done 0 (received x s)) :=
  serve_of_answer ha rfl

/-- R178: what IDENTIFY asks of its fields, and the word it answers. -/
theorem exec_identify (ha : s.agenda = []) (p m : BitVec 4) (a : Word) :
    exec (.identify x p m a) s =
      if 8 ≤ m.toNat ∨ a ≠ 0 then .next (setReply x .badArgument 0 (received x s))
      else .next (setReply x .done (s.identifyWord m.toNat) (received x s)) := by
  change execIdentify x p m a s = _
  unfold execIdentify
  split <;> exact serve_of_answer ha rfl

theorem exec_identify_badModifier (ha : s.agenda = []) (p : BitVec 4) {m : BitVec 4} (hm : 8 ≤ m.toNat) :
    exec (.identify x p m 0) s = .next (setReply x .badArgument 0 (received x s)) := by
  rw [exec_identify ha, if_pos (.inl hm)]

theorem exec_identify_word (ha : s.agenda = []) (p : BitVec 4) {m : BitVec 4} (hm : m.toNat < 8) :
    exec (.identify x p m 0) s = .next (setReply x .done (s.identifyWord m.toNat) (received x s)) := by
  rw [exec_identify ha, if_neg (by simp [hm])]

end

/-- Settles O18: both requests keep the received state, and IDENTIFY's word is `identifyWord` of its modifier. -/
theorem nopAndIdentifyAnswer : Obligations.NopAndIdentifyAnswer := by
  intro x p m a s ha
  have word {n : BitVec 4} (hn : n.toNat < 8) := exec_identify_word (x := x) ha p hn
  exact ⟨exec_nop ha p m a, exec_identify_badModifier ha p, word (n := 0) (by decide), word (n := 1) (by decide),
    word (n := 2) (by decide), word (n := 3) (by decide), word (n := 4) (by decide), word (n := 5) (by decide),
    word (n := 6) (by decide), word (n := 7) (by decide)⟩

end Sys2Proof.Machine
end

section
/-! What an operation of the blocks may do, said once (`Acts`): it leaves time, pins, supply, the global record, the
image and the waiting commands alone, changes a link in its event queue and lost counter only, and keeps the bounds of
queues, counters, load contexts and records. The invariants of chapters 1, 3, 4 and 10 follow from it. -/

namespace Sys2Proof.Machine

/-! ## The bounds, channel by channel and link by link -/

/-- R7, R12, R6, R10, R11: `HallBounds` for one channel. -/
def Hif.Bounded (h : Hif) : Prop :=
  -1024 ≤ h.pos ∧ h.pos ≤ 5119 ∧ h.fifo.length ≤ 2 ∧ h.quadErrors ≤ 255 ∧ h.contrary ≤ 255 ∧ h.drift ≤ 255

/-- R42, R43: `LoadBounds` for one channel. -/
def LoadContext.Bounded (k : LoadContext) : Prop :=
  -1024 ≤ k.smoothed ∧ k.smoothed ≤ 4095 ∧ k.excess ≤ 65535

theorem hallBounds_iff {s : State} : HallBounds s ↔ ∀ c, (s.ch c).hif.Bounded := Iff.rfl
theorem loadBounds_iff {s : State} : LoadBounds s ↔ ∀ c, (s.ch c).ctx.Bounded := Iff.rfl

/-- What an operation may make of a channel. -/
structure ChanActs (k k' : Channel) : Prop where
  hif : k.hif.Bounded → k'.hif.Bounded
  ctx : k.ctx.Bounded → k'.ctx.Bounded
  cal : k.cal.valid → k'.cal.valid

/-- What an operation may make of a link. -/
structure LinkActs (l l' : Link) : Prop where
  frame : l' = { l with queue := l'.queue, lost := l'.lost }
  queue : l.queue.length ≤ 16 → l'.queue.length ≤ 16
  lost : l.lost ≤ 255 → l'.lost ≤ 255

/-- What an operation of the blocks may make of the device. -/
structure Acts (s t : State) : Prop where
  frame : t = { s with
    chans := t.chans
    lde := t.lde
    startQueue := t.startQueue
    spacing := t.spacing
    groups := t.groups
    links := t.links
    fresh := t.fresh
    agenda := t.agenda }
  ch : ∀ c, ChanActs (s.ch c) (t.ch c)
  link : ∀ y, LinkActs (s.link y) (t.link y)

theorem ChanActs.refl (k : Channel) : ChanActs k k := ⟨id, id, id⟩

theorem ChanActs.trans {k l m : Channel} (h : ChanActs k l) (h' : ChanActs l m) : ChanActs k m :=
  ⟨h'.hif ∘ h.hif, h'.ctx ∘ h.ctx, h'.cal ∘ h.cal⟩

theorem LinkActs.refl (l : Link) : LinkActs l l := ⟨rfl, id, id⟩

theorem LinkActs.trans {l m n : Link} (h : LinkActs l m) (h' : LinkActs m n) : LinkActs l n :=
  ⟨by rw [h'.frame, h.frame], h'.queue ∘ h.queue, h'.lost ∘ h.lost⟩

theorem linkActs_joinQueue (e : Event) (l : Link) : LinkActs l (joinQueue e l) :=
  ⟨by unfold joinQueue; split <;> rfl, length_joinQueue, lost_joinQueue⟩

namespace Acts

theorem refl (s : State) : Acts s s := ⟨rfl, fun _ => .refl _, fun _ => .refl _⟩

theorem trans {s t u : State} (h : Acts s t) (k : Acts t u) : Acts s u :=
  ⟨by rw [k.frame, h.frame], fun c => (h.ch c).trans (k.ch c), fun y => (h.link y).trans (k.link y)⟩

section
variable {s u : State} (h : Acts s u)
include h

theorem clock : u.clock = s.clock := by rw [h.frame]
theorem pins : u.pins = s.pins := by rw [h.frame]
theorem sup : u.sup = s.sup := by rw [h.frame]
theorem glob : u.glob = s.glob := by rw [h.frame]
theorem calLoaded : u.calLoaded = s.calLoaded := by rw [h.frame]
theorem staging : u.staging = s.staging := by rw [h.frame]
theorem serial : u.serial = s.serial := by rw [h.frame]
theorem ready : u.ready = s.ready := by rw [h.frame]
theorem stb : u.stb = s.stb := by rw [h.frame]
theorem nvc : u.nvc = s.nvc := by rw [h.frame]
theorem pending : u.pending = s.pending := by rw [h.frame]

/-- The model's own fields, LDE, the start queue, the spacing timer and the group table are nobody's bounds. -/
theorem aside (l : Lde) (q : List Chan) (sp : Spacing) (g : Vector (Option GroupEntry) 4) (f : Nat) (a : List Task) :
    Acts s { u with lde := l, startQueue := q, spacing := sp, groups := g, fresh := f, agenda := a } :=
  ⟨by rw [h.frame], h.ch, h.link⟩

/-! ### A channel is changed -/

theorem updChan (c : Chan) {f : Channel → Channel} (hf : ChanActs (u.ch c) (f (u.ch c))) :
    Acts s (updChan c f u) := by
  refine h.trans ⟨rfl, fun d => ?_, fun _ => .refl _⟩
  rw [ch_updChan]
  split
  · next e => exact e ▸ hf
  · exact .refl _

theorem updMoc (c : Chan) (f : Moc → Moc) : Acts s (updMoc c f u) := h.updChan c ⟨id, id, id⟩
theorem updAuth (c : Chan) (f : Auth → Auth) : Acts s (updAuth c f u) := h.updChan c ⟨id, id, id⟩
theorem setHold (c : Chan) (k : Hold) : Acts s (setHold c k u) := h.updChan c ⟨id, id, id⟩
theorem updLearning (c : Chan) (f : Learning → Learning) : Acts s (updLearning c f u) := h.updChan c ⟨id, id, id⟩

theorem updHif (c : Chan) {f : Hif → Hif} (hf : (u.ch c).hif.Bounded → (f (u.ch c).hif).Bounded) :
    Acts s (updHif c f u) := h.updChan c ⟨hf, id, id⟩

theorem updCtx (c : Chan) {f : LoadContext → LoadContext}
    (hf : (u.ch c).ctx.Bounded → (f (u.ch c).ctx).Bounded) : Acts s (updCtx c f u) := h.updChan c ⟨id, hf, id⟩

theorem updCal (c : Chan) {f : CalRecord → CalRecord} (hf : (u.ch c).cal.valid → (f (u.ch c).cal).valid) :
    Acts s (updCal c f u) := h.updChan c ⟨id, id, hf⟩

/-! ### Events, the agenda, the group table -/

theorem deliver (e : Event) (x : Client) : Acts s (deliver e u x) := by
  refine h.trans ⟨onlyLinks_deliver .. ▸ rfl, fun c => ?_, fun y => ?_⟩
  · rw [(onlyLinks_deliver e u x).ch]; exact .refl _
  · rw [link_deliver]
    split
    · exact linkActs_joinQueue ..
    · exact .refl _

end

/-- What every element of a list keeps in turn, the list keeps. -/
theorem foldl {α : Type} {s : State} {f : State → α → State} (hf : ∀ {u} a, Acts s u → Acts s (f u a)) (l : List α)
    {u : State} (h : Acts s u) : Acts s (l.foldl f u) := by
  induction l generalizing u with
  | nil => exact h
  | cons a l ih => exact ih (hf a h)

end Acts
end Sys2Proof.Machine
end

section
/-! Every operation of MOC, SLA, AUT, GRP, NRM, HIF and LDE is one that `Acts` allows, in the order of the model's
definitions. -/

namespace Sys2Proof.Machine.Acts

variable {s u : State}

/-! ## Events, tasks, groups -/

theorem post (h : Acts s u) (k : EventKind) (c : Option Chan) (w d : Word) : Acts s (post k c w d u) := by
  unfold Machine.post
  split
  · split
    · exact foldl (fun _ hu => hu.deliver _ _) _ h
    · exact h
  · exact foldl (fun _ hu => hu.deliver _ _) _ h

theorem postAt (h : Acts s u) (k : EventKind) (c : Chan) (pos : Int) (d : Word) : Acts s (postAt k c pos d u) :=
  h.post ..

theorem push (h : Acts s u) (t : Task) : Acts s (push t u) := h.aside ..
theorem setGroup (h : Acts s u) (g : Fin 4) (e : Option GroupEntry) : Acts s (setGroup g e u) := h.aside ..
theorem leaveQueue (h : Acts s u) (c : Chan) : Acts s (leaveQueue c u) := h.aside ..

theorem notifyFollower (h : Acts s u) (p : Chan) : Acts s (notifyFollower p u) := by
  rw [notifyFollower_eq]; exact h.aside ..

theorem noteEnd (h : Acts s u) (c : Chan) (own : Option Chan) (ok : Bool) : Acts s (noteEnd c own ok u) :=
  (h.push _).notifyFollower _

theorem noteMoved (h : Acts s u) (c : Chan) : Acts s (noteMoved c u) := h.push _

theorem testFollowers (h : Acts s u) : Acts s (testFollowers u) := foldl (fun _ hu => hu.push _) _ h

/-! ## HIF and the drives -/

theorem setPosition (h : Acts s u) (c : Chan) {x : Int} (hx : -1024 ≤ x ∧ x ≤ 5119) (v : Bool) :
    Acts s (setPosition c x v u) :=
  (h.updHif c fun ⟨_, _, hrest⟩ => ⟨hx.1, hx.2, hrest⟩).notifyFollower _

theorem bounded_clearRun {f : Hif} (hf : f.Bounded) : f.clearRun.Bounded :=
  ⟨hf.1, hf.2.1, Nat.zero_le _, Nat.zero_le _, Nat.zero_le _, Nat.zero_le _⟩

theorem bounded_restart {f : Hif} (hf : f.Bounded) : f.restart.Bounded := (bounded_clearRun hf :)

theorem bounded_startRun (d : Dir) {k : LoadContext} : (k.startRun d).Bounded := by
  cases d <;> exact ⟨show (-1024 : Int) ≤ 0 by decide, show (0 : Int) ≤ 4095 by decide, Nat.zero_le _⟩

theorem dropTake (h : Acts s u) (c : Chan) : Acts s (dropTake c u) := by
  rw [dropTake_eq]; exact h.aside ..

theorem blankOne (h : Acts s u) (c j : Chan) : Acts s (blankOne c u j) := by
  have hb : Acts s (Machine.updCtx j (fun k => { k with blank := (u.ch j).cal.bn }) u) := h.updCtx j id
  unfold Machine.blankOne
  split
  · dsimp only
    split
    · split
      · exact hb.aside ..
      · exact hb
    · exact hb
  · exact h

theorem driveOn (h : Acts s u) (c : Chan) (m : Motion) (d : Dir) : Acts s (driveOn c m d u) := by
  have hrun := ((h.updHif c bounded_clearRun).updCtx c fun _ => bounded_startRun d).dropTake c
  exact ((foldl (fun j hu => hu.blankOne c j) allChans hrun).updMoc c _).aside ..

theorem driveOff (h : Acts s u) (c : Chan) : Acts s (driveOff c u) := by
  unfold Machine.driveOff
  split
  · exact (h.updHif c fun ⟨h1, h2, h3, h4, h5, _⟩ => ⟨h1, h2, h3, h4, h5, Nat.zero_le _⟩).updMoc ..
  · exact h

/-! ## Slots, the start queue, the level -/

theorem releaseSlot (h : Acts s u) (c : Chan) : Acts s (releaseSlot c u) := by
  unfold Machine.releaseSlot
  split
  · exact (h.updMoc ..).push _
  · exact h

theorem joinStartQueue (h : Acts s u) (c : Chan) : Acts s (joinStartQueue c u) :=
  ((h.aside ..).updMoc ..).push _

theorem setLevel (h : Acts s u) (c : Chan) (l : Level) (pos : Int) : Acts s (setLevel c l pos u) := by
  unfold Machine.setLevel
  split
  · exact h
  · exact (h.updChan c ⟨id, id, id⟩).postAt ..

/-! ## Reports to GRP and NRM -/

theorem finishGroup (h : Acts s u) (g : Fin 4) : Acts s (finishGroup g u) := by
  unfold Machine.finishGroup
  split
  · split
    · exact (h.post ..).setGroup ..
    · exact h
  · exact h

theorem recordMember (h : Acts s u) (g : Fin 4) (c : Chan) (o : MemberOutcome) : Acts s (recordMember g c o u) := by
  unfold Machine.recordMember
  split
  · split
    · exact (h.setGroup ..).finishGroup _
    · exact h
  · exact h

theorem reportGroup (h : Acts s u) (c : Chan) (o : Order) (e : OrderEnd) : Acts s (reportGroup c o e u) := by
  unfold Machine.reportGroup
  split
  · split
    · split
      · exact h
      · exact h.recordMember ..
    · exact h
  · exact h

theorem reportGroupReversal (h : Acts s u) (c : Chan) (e : RevEnd) : Acts s (reportGroupReversal c e u) :=
  foldl (fun _ hu => hu.recordMember ..) _ h

theorem learnFailed (h : Acts s u) (c : Chan) (k : RunKind) (r : LearnFail) (e : OrderEnd) (pos : Int) :
    Acts s (learnFailed c k r e pos u) := (h.postAt ..).updLearning ..

theorem learnDone (h : Acts s u) (c : Chan) (k : RunKind) (pos : Int) : Acts s (learnDone c k pos u) :=
  (h.postAt ..).updLearning ..

/-- R1: a clamped value lies within its bounds. -/
theorem clampNat_bounds (x : Nat) {lo hi : Nat} (h : lo ≤ hi) : lo ≤ clampNat lo hi x ∧ clampNat lo hi x ≤ hi := by
  simp only [clampNat]; omega

theorem clampInt_bounds (x : Int) {lo hi : Int} (h : lo ≤ hi) : lo ≤ clampInt lo hi x ∧ clampInt lo hi x ≤ hi := by
  simp only [clampInt]; omega

/-- R166: a covered profile has one value for each band of the run record it is formed from, each in its range. -/
theorem coverFrom_spec {nb : Nat} {l : List BandSum} {b prev : Nat} {p : List Nat}
    (hprev : b = 0 ∧ 2 < nb ∨ 200 ≤ prev ∧ prev ≤ 60000) (h : coverFrom nb l b prev = some p) :
    p.length = l.length ∧ ∀ v ∈ p, 200 ≤ v ∧ v ≤ 60000 := by
  induction l generalizing b prev p with
  | nil => obtain rfl : p = [] := by simpa [coverFrom] using h.symm
           simp
  | cons x l ih =>
    have hv := clampNat_bounds (x.sum / x.count) (show 200 ≤ 60000 by decide)
    unfold coverFrom at h
    split at h
    · obtain ⟨q, hq, rfl⟩ := Option.map_eq_some_iff.mp h
      obtain ⟨hl, hb⟩ := ih (.inr hv) hq
      exact ⟨by simp [hl], by simpa using ⟨hv, hb⟩⟩
    · split at h
      · obtain ⟨q, hq, rfl⟩ := Option.map_eq_some_iff.mp h
        have hp : 200 ≤ prev ∧ prev ≤ 60000 := hprev.resolve_left (by omega)
        obtain ⟨hl, hb⟩ := ih (.inr hp) hq
        exact ⟨by simp [hl], by simpa using ⟨hp, hb⟩⟩
      · cases h

theorem coveredProfile_spec {t : Nat} {run : LoadContext} {p : List Nat} (ht : 256 ≤ t ∧ t ≤ 4064)
    (h : coveredProfile t run = some p) : p.length = bandTotal t ∧ ∀ v ∈ p, 200 ≤ v ∧ v ≤ 60000 := by
  have hnb : 2 < bandTotal t ∧ bandTotal t ≤ 127 := by unfold bandTotal; omega
  obtain ⟨hl, hb⟩ := coverFrom_spec (.inl ⟨rfl, hnb.1⟩) h
  exact ⟨by simpa [hnb.2] using hl, hb⟩

/-- R54: a record without Lt has no profile. -/
theorem valid_of_travel {r : CalRecord} (h : r.valid) (t : Option Nat) (p : Option (List Nat)) (n : Nat) (b b' : Bool)
    (ht : ∀ x, t = some x → 256 ≤ x ∧ x ≤ 4064)
    (hp : ∀ q, p = some q → ∃ x, t = some x ∧ q.length = bandTotal x ∧ ∀ v ∈ q, 200 ≤ v ∧ v ≤ 60000)
    (hn : n ≤ 65535) :
    ({ r with travel := t, profile := p, adaptations := n, unsaved := b, changed := b' } : CalRecord).valid := by
  obtain ⟨_, _, h3, h4, h5, h6, h7, h8, h9, h10, h11, h12, h13, h14, h15, _⟩ := h
  exact ⟨ht, hp, h3, h4, h5, h6, h7, h8, h9, h10, h11, h12, h13, h14, h15, hn⟩

/-- R74, R166: a record takes a profile, or loses the one it has, and is marked. -/
theorem valid_withProfile {r : CalRecord} (h : r.valid) {p : Option (List Nat)} {n : Nat}
    (hp : ∀ q, p = some q → ∃ x, r.travel = some x ∧ q.length = bandTotal x ∧ ∀ v ∈ q, 200 ≤ v ∧ v ≤ 60000)
    (hn : n ≤ 65535) : ({ r with profile := p, adaptations := n } : CalRecord).markChanged.valid :=
  valid_of_travel h r.travel p n true true h.1 hp hn

theorem learnClose (h : Acts s u) (c : Chan) (pos : Int) : Acts s (learnClose c pos u) := by
  unfold Machine.learnClose
  split
  · exact h.learnFailed ..
  · next t ht =>
    split
    · exact h.learnFailed ..
    · next bands hb =>
      have hcal : Acts s (Machine.updCal c (fun r => ({ r with profile := some bands, adaptations := 0 }).markChanged) u) :=
        h.updCal c fun hv => valid_withProfile hv
          (fun q hq => ⟨t, ht, Option.some.inj hq ▸ coveredProfile_spec (hv.1 t ht) hb⟩) (Nat.zero_le _)
      exact (hcal.setLevel ..).learnDone ..

theorem reportLearning (h : Acts s u) (c : Chan) (o : Order) (e : OrderEnd) (pos : Int) :
    Acts s (reportLearning c o e pos u) := by
  unfold Machine.reportLearning
  split
  · split
    · exact h.learnFailed ..
    · split
      · exact h.learnDone ..
      · split
        · exact h.learnClose ..
        · exact h.learnFailed ..
  · exact h

/-! ## The ends of orders and reversals -/

theorem stopChannel (h : Acts s u) (c : Chan) (m : Motion) : Acts s (stopChannel c m u) :=
  ((((h.driveOff c).releaseSlot c).leaveQueue c).updMoc ..).setHold ..

theorem endOrderWith (h : Acts s u) (c : Chan) (e : OrderEnd) (m : Motion) {before after : State → State}
    (hb : ∀ {v}, Acts s v → Acts s (before v)) (ha : ∀ {v}, Acts s v → Acts s (after v)) :
    Acts s (endOrderWith c e m before after u) := by
  unfold Machine.endOrderWith
  split
  · exact h
  · exact (ha (((hb ((h.stopChannel c m).noteEnd ..)).postAt ..).reportGroup ..)).reportLearning ..

theorem endOrder (h : Acts s u) (c : Chan) (e : OrderEnd) : Acts s (endOrder c e u) := h.endOrderWith c e _ id id

theorem endTarget (h : Acts s u) (c : Chan) : Acts s (endTarget c u) := by
  unfold Machine.endTarget
  split
  · exact h
  · split
    · exact h.endOrderWith c _ _ (fun hv => hv.postAt ..) id
    · exact h.endOrder ..

theorem holdOrder (h : Acts s u) (c : Chan) (o : Order) : Acts s (holdOrder c o u) := by
  unfold Machine.holdOrder
  dsimp only
  split
  · split
    · exact (h.updMoc ..).setGroup ..
    · exact h.updMoc ..
  · exact h.updMoc ..

theorem replaceOrder (h : Acts s u) (c : Chan) (o : Order) : Acts s (replaceOrder c o u) := by
  unfold Machine.replaceOrder
  split
  · exact h.holdOrder ..
  · exact ((((h.noteEnd ..).postAt ..).reportGroup ..).reportLearning ..).holdOrder ..

theorem endReversalTo (h : Acts s u) (c : Chan) (e : RevEnd) (m : Motion) : Acts s (endReversalTo c e m u) :=
  (((h.stopChannel c m).noteEnd ..).postAt ..).reportGroupReversal ..

theorem replaceReversal (h : Acts s u) (c : Chan) (o : Order) (m : Motion) : Acts s (replaceReversal c o m u) :=
  ((((h.updMoc ..).noteEnd ..).postAt ..).reportGroupReversal ..).holdOrder ..

theorem endReversal (h : Acts s u) (c : Chan) (e : RevEnd) : Acts s (endReversal c e u) := h.endReversalTo ..

theorem reversalAtTarget (h : Acts s u) (c : Chan) : Acts s (reversalAtTarget c u) := (h.endReversal ..).updAuth ..

theorem enterFaultWith (h : Acts s u) (c : Chan) (r : FaultReason) {after : State → State}
    (ha : ∀ {v}, Acts s v → Acts s (after v)) : Acts s (enterFaultWith c r after u) := by
  have hp := ((h.driveOff c).updMoc c fun k => { k with fault := some r }).postAt .channelFault c (u.ch c).hif.pos
    (natWord (faultCode (some r)))
  unfold Machine.enterFaultWith
  split
  · exact ha h
  · split
    · exact ha (hp.endReversalTo ..)
    · split
      · exact hp.endOrderWith c _ _ id ha
      · exact ha (hp.updMoc ..)

theorem enterFault (h : Acts s u) (c : Chan) (r : FaultReason) : Acts s (enterFault c r u) := h.enterFaultWith c r id

/-! ## Installation, gates, grants -/

theorem clearOverride (h : Acts s u) (c : Chan) : Acts s (clearOverride c u) := h.updAuth ..
theorem changePhase (h : Acts s u) (c : Chan) : Acts s (changePhase c u) := h.updMoc ..

theorem installBasic (h : Acts s u) (c : Chan) (o : Order) : Acts s (installBasic c o u) := by
  have braked : Acts s (Machine.updMoc c (fun k => { k with motion := .brakingOrder })
      (Machine.driveOff c (Machine.replaceOrder c o u))) := ((h.replaceOrder ..).driveOff ..).updMoc ..
  unfold Machine.installBasic
  refine noteMoved ?_ c
  split
  case h_1 =>
    dsimp only
    split
    · split
      · exact ((h.holdOrder ..).changePhase ..).joinStartQueue ..
      · exact (h.holdOrder ..).endTarget ..
    · exact (h.holdOrder ..).joinStartQueue ..
  case h_2 =>
    split
    · exact h.replaceOrder ..
    · exact (h.replaceOrder ..).joinStartQueue ..
  case h_3 => exact h.replaceOrder ..
  case h_4 =>
    split
    · exact h.replaceOrder ..
    · exact braked
  case h_5 =>
    split
    · exact h.replaceOrder ..
    · exact braked
  case h_6 => exact h.replaceReversal ..
  case h_7 => exact h.replaceReversal ..
  case h_8 => exact ((h.replaceOrder ..).updMoc ..).setHold ..
  case h_9 => exact h

theorem installInternal (h : Acts s u) (c : Chan) (o : Order) : Acts s (installInternal c o u) := by
  have hi := (h.clearOverride c).installBasic c (u.normalized c o)
  unfold Machine.installInternal
  split
  · exact hi.joinStartQueue ..
  · exact hi

theorem gateTest (h : Acts s u) (p c : Chan) (o : Order) : Acts s (gateTest p c o u).2 := by
  unfold Machine.gateTest
  split
  · exact h
  · split
    · exact h
    · split
      · dsimp only
        split
        · exact h
        · exact h.installInternal ..
      · exact h

theorem enterWaiting (h : Acts s u) (c : Chan) (k : Hold) : Acts s (enterWaiting c k u) :=
  (((h.driveOff c).releaseSlot c).updMoc ..).setHold ..

theorem throughGate (h : Acts s u) (p : Chan) (o : Order) {passed : State → State} (due : Option Chan)
    (hp : ∀ {v}, Acts s v → Acts s (passed v)) : Acts s (throughGate p o passed due u) := by
  unfold Machine.throughGate
  split
  · exact hp h
  · next c =>
    have hg := h.gateTest p c o
    split <;> rename_i v hv <;> rw [hv] at hg
    · exact hp hg
    · exact hg.enterWaiting ..
    · exact hg.endOrder ..

theorem driveGated (h : Acts s u) (c : Chan) : Acts s (driveGated c u) := by
  unfold Machine.driveGated
  split
  · exact h
  · split
    · exact h.throughGate c _ _ fun hv => hv.driveOn ..
    · split
      · exact h.enterWaiting ..
      · exact h.driveOn ..

theorem startDrive (h : Acts s u) (c : Chan) : Acts s (startDrive c u) := by
  unfold Machine.startDrive
  split
  · exact h
  · split
    · split
      · exact (h.changePhase ..).driveGated ..
      · exact h.endTarget ..
    · exact h.driveGated ..

theorem grantTest (h : Acts s u) : Acts s (grantTest u) := by
  unfold Machine.grantTest
  split
  · split
    · exact ((h.leaveQueue ..).updMoc ..).startDrive ..
    · exact h
  · exact h

theorem resume (h : Acts s u) (c : Chan) : Acts s (resume c u) :=
  ((h.updMoc ..).setHold ..).joinStartQueue ..

theorem leaderAfterEnd (h : Acts s u) (c : Chan) (own : Option Chan) (ok : Bool) (p : Chan) :
    Acts s (leaderAfterEnd c own ok u p) := by
  unfold Machine.leaderAfterEnd
  split
  · split
    · split
      · exact h.resume ..
      · exact h.endOrder ..
    · split
      · exact h.endOrder ..
      · split
        · exact h
        · next o _ =>
          have hg := h.gateTest p c o
          split <;> rename_i v hv <;> rw [hv] at hg
          · exact hg.resume ..
          · exact hg
          · exact hg.endOrder ..
  · exact h

theorem leaderAfterMove (h : Acts s u) (c p : Chan) : Acts s (leaderAfterMove c u p) := by
  unfold Machine.leaderAfterMove
  split
  · exact h.resume ..
  · exact h

theorem followerAfter (h : Acts s u) (c : Chan) : Acts s (followerAfter c u) := by
  unfold Machine.followerAfter
  split
  · exact h.resume ..
  · exact h

theorem runTask (h : Acts s u) (t : Task) : Acts s (runTask t u) := by
  cases t with
  | grantTest => exact h.grantTest
  | orderEnded c waiters own ok => exact foldl (fun p hu => hu.leaderAfterEnd c own ok p) waiters h
  | moved c waiters => exact foldl (fun p hu => hu.leaderAfterMove c p) waiters h
  | followerTest c => exact h.followerAfter c

theorem settle (h : Acts s u) : Acts s (settle u) :=
  settle_induct (fun _ _ hv => hv.aside ..) (fun t _ hv => hv.runTask t) h

theorem installWaiting (h : Acts s u) (c : Chan) : Acts s (installWaiting c u) := by
  unfold Machine.installWaiting
  split
  · exact h
  · split
    · exact h.throughGate c _ _ fun hv => hv.joinStartQueue ..
    · split
      · exact h.enterWaiting ..
      · exact h.joinStartQueue ..

theorem install (h : Acts s u) (c : Chan) (o : Order) : Acts s (install c o u) := by
  have hi := h.installBasic c (u.normalized c o)
  unfold Machine.install
  dsimp only
  split
  · exact hi.installWaiting ..
  · exact hi.throughGate c _ _ id
  · exact hi

theorem handOver (h : Acts s u) (c : Chan) (o : Order) : Acts s (handOver c o u) := by
  unfold Machine.handOver
  split
  · exact (h.clearOverride c).install ..
  · exact h.install ..

/-! ## Pinches, stalls, expiries -/

theorem pinch (h : Acts s u) (c : Chan) (r : PinchReason) (load x : Int) : Acts s (pinch c r load x u) := by
  unfold Machine.pinch
  split
  · exact ((((((h.driveOff c).updMoc ..).noteEnd ..).postAt ..).updAuth ..).reportGroup ..).reportLearning ..
  · exact h

theorem takeCorrection (h : Acts s u) (c : Chan) (o : Order) (x : Int) : Acts s (takeCorrection c o x u) := by
  unfold Machine.takeCorrection
  split
  · exact h
  · split
    · exact h.updLearning ..
    · split
      · have hcal : Acts s (Machine.updCal c (fun r => ({ r with profile := none, adaptations := 0 }).markChanged) u) :=
          h.updCal c fun hv => valid_withProfile hv (fun _ hq => nomatch hq) (Nat.zero_le _)
        exact hcal.setLevel ..
      · exact h

/-- R73: a corrected band stays in the range of a profile value. -/
theorem adaptBand_bounds {r : Nat} (h : 200 ≤ r ∧ r ≤ 60000) (w : Nat) (b : BandSum) :
    200 ≤ adaptBand r w b ∧ adaptBand r w b ≤ 60000 := by
  unfold adaptBand
  split
  · dsimp only
    split
    · have hc := clampInt_bounds ((r : Int) + (((b.sum / b.count : Nat) : Int) - r).tdiv 8)
        (show (200 : Int) ≤ 60000 by decide)
      omega
    · exact h
  · exact h

theorem adaptBands_spec (t : Nat) (l : List Nat) (sums : List BandSum) (b : Nat)
    (h : ∀ v ∈ l, 200 ≤ v ∧ v ≤ 60000) :
    (adaptBands t l sums b).length = l.length ∧ ∀ v ∈ adaptBands t l sums b, 200 ≤ v ∧ v ≤ 60000 := by
  induction l generalizing sums b with
  | nil => simp [adaptBands]
  | cons r l ih =>
    cases sums with
    | nil => exact ⟨rfl, h⟩
    | cons x sums =>
      obtain ⟨hr, hl⟩ := List.forall_mem_cons.mp h
      obtain ⟨ih1, ih2⟩ := ih sums (b + 1) hl
      exact ⟨by simp [adaptBands, ih1], by simpa [adaptBands] using ⟨adaptBand_bounds hr _ x, ih2⟩⟩

theorem valid_adaptRecord {r : CalRecord} (h : r.valid) (run : LoadContext) : (adaptRecord r run).valid := by
  unfold adaptRecord
  split
  · next t bands ht hb =>
    dsimp only
    split
    · exact h
    · obtain ⟨t', ht', hl, hv⟩ := h.2.1 bands hb
      obtain ⟨h1, h2⟩ := adaptBands_spec t bands run.bands.toList 0 hv
      refine valid_withProfile h ?_ (Nat.min_le_left ..)
      rintro q ⟨⟩
      exact ⟨t', ht', h1.trans hl, h2⟩
  · exact h

theorem takeAdaptation (h : Acts s u) (c : Chan) (o : Order) (x : Int) : Acts s (takeAdaptation c o x u) := by
  unfold Machine.takeAdaptation
  split
  · exact h.updCal c fun hv => valid_adaptRecord hv _
  · exact h

theorem closedEndAuth (h : Acts s u) (c : Chan) (o : Order) : Acts s (closedEndAuth c o u) :=
  (h.clearOverride c).updAuth ..

theorem closedEndFound (h : Acts s u) (c : Chan) (o : Order) : Acts s (closedEndFound c o u) :=
  (((h.setPosition c (by decide) true).setLevel ..).updMoc ..).endOrderWith c _ _ (fun hv => hv.postAt ..)
    fun hv => hv.closedEndAuth ..

theorem closedEnd (h : Acts s u) (c : Chan) (o : Order) : Acts s (closedEnd c o u) := by
  unfold Machine.closedEnd
  dsimp only
  refine endOrderWith ((h.setPosition c (by decide) true).updMoc ..) c _ _ (fun hv => ?_) (fun hv => ?_)
  · split
    · exact (hv.postAt ..).postAt ..
    · exact hv.postAt ..
  · exact ((hv.takeAdaptation ..).takeCorrection ..).closedEndAuth ..

theorem learnOpenEndStall (h : Acts s u) (c : Chan) : Acts s (learnOpenEndStall c u) := by
  unfold Machine.learnOpenEndStall
  dsimp only
  split
  · next hx =>
    have hcal : Acts s (Machine.updCal c (fun r => ({ r with
        travel := some (u.ch c).hif.pos.toNat, profile := none, adaptations := 0 }).markChanged) u) :=
      h.updCal c fun hv => valid_of_travel hv (some (u.ch c).hif.pos.toNat) none 0 true true
        (fun x hx' => by cases hx'; omega) (fun _ hq => nomatch hq) (Nat.zero_le _)
    exact hcal.endOrderWith c _ _ (fun hv => hv.postAt ..) fun hv => hv.setLevel ..
  · exact (h.updLearning ..).endOrder ..

theorem openingStall (h : Acts s u) (c : Chan) : Acts s (openingStall c u) := by
  unfold Machine.openingStall
  split
  · exact h.endOrderWith c _ _ (fun hv => hv.postAt ..) id
  · exact h.endOrder ..

theorem stallOutcome (h : Acts s u) (c : Chan) : Acts s (stallOutcome c u) := by
  unfold Machine.stallOutcome
  split
  · split
    · exact h.closedEndFound ..
    · split
      · exact h.closedEnd ..
      · exact h.pinch ..
  · split
    · exact h.learnOpenEndStall ..
    · exact h.openingStall ..
  · exact h.endReversal ..
  · exact h

theorem stallExpired (h : Acts s u) (c : Chan) : Acts s (stallExpired c u) := by
  unfold Machine.stallExpired
  split
  · dsimp only
    split
    · exact (h.updMoc ..).enterFault ..
    · exact (h.updMoc ..).stallOutcome ..
  · exact h.stallOutcome ..

theorem startReversal (h : Acts s u) (c : Chan) : Acts s (startReversal c u) := by
  unfold Machine.startReversal
  split
  · split
    · exact h.reversalAtTarget ..
    · exact h.driveOn ..
  · exact h

theorem brakeExpired (h : Acts s u) (c : Chan) : Acts s (brakeExpired c u) := by
  have hb : Acts s (Machine.updMoc c (fun k => { k with brakeRunning := false }) u) := h.updMoc ..
  unfold Machine.brakeExpired
  dsimp only
  split
  · exact hb.startDrive ..
  · exact hb.startReversal ..
  · exact hb.push _
  all_goals exact hb

theorem spacingRunsOut (h : Acts s u) : Acts s (spacingRunsOut u) := by
  unfold Machine.spacingRunsOut
  split
  · exact (h.aside ..).push _
  · exact h

theorem waitExpired (h : Acts s u) (c : Chan) : Acts s (waitExpired c u) := by
  unfold Machine.waitExpired
  split
  · exact h.endOrder ..
  · exact h.endOrder ..
  · exact h

/-! ## Hall steps -/

theorem targetByStep (h : Acts s u) (c : Chan) (o : Order) : Acts s (targetByStep c o u) := by
  unfold Machine.targetByStep
  split
  · exact ((h.driveOff ..).changePhase ..).updMoc ..
  · exact h.endTarget ..

theorem stepOutcome (h : Acts s u) (c : Chan) : Acts s (stepOutcome c u) := by
  unfold Machine.stepOutcome
  dsimp only
  split
  · split
    · split
      · exact h.reversalAtTarget ..
      · exact h
    · exact h
  · split
    · exact h.targetByStep ..
    · exact h.throughGate c _ _ id
  · split
    · exact h.targetByStep ..
    · split
      · exact h.enterWaiting ..
      · exact h
  · exact h

theorem countStep (h : Acts s u) (c : Chan) : Acts s (countStep c u) := by
  unfold Machine.countStep
  exact (h.updMoc ..).updMoc ..

theorem driveStep (h : Acts s u) (c : Chan) (d : Dir) : Acts s (driveStep c d u) := by
  refine notifyFollower ?_ c
  split
  · exact ((h.countStep c).stepOutcome c).noteMoved c
  · exact (h.countStep c).stepOutcome c

theorem driftStep (h : Acts s u) (c : Chan) : Acts s (driftStep c u) := by
  have hd : Acts s (Machine.updHif c (fun f => { f with drift := satSucc 255 (u.ch c).hif.drift }) u) :=
    h.updHif c fun ⟨h1, h2, h3, h4, h5, _⟩ => ⟨h1, h2, h3, h4, h5, Nat.min_le_left ..⟩
  unfold Machine.driftStep
  dsimp only
  split
  · exact hd.postAt ..
  · exact hd

theorem length_captured (k : Capture) {l : List Capture} (h : l.length ≤ 2) : (captured k l).length ≤ 2 := by
  unfold captured
  split <;> simp <;> omega

theorem bounded_capture {f : Hif} (hf : f.Bounded) (k : Capture) : (f.capture k).Bounded := by
  obtain ⟨h1, h2, h3, h4⟩ := hf
  rw [Hif.capture_eq]
  exact ⟨h1, h2, length_captured k h3, h4⟩

theorem contraryStep (h : Acts s u) (c : Chan) (d : Dir) : Acts s (contraryStep c d u) := by
  have hc : Acts s (Machine.updHif c (fun f => ({ f with contrary := satSucc 255 (u.ch c).hif.contrary }).capture
      (u.captureOf (u.ch c).hif.pos d)) u) :=
    h.updHif c fun ⟨h1, h2, h3, h4, _, h6⟩ => by
      refine bounded_capture ?_ _
      exact ⟨h1, h2, h3, h4, Nat.min_le_left .., h6⟩
  unfold Machine.contraryStep
  dsimp only
  split
  · exact hc.enterFault ..
  · exact hc

theorem classifyStep (h : Acts s u) (c : Chan) (d : Dir) : Acts s (classifyStep c d u) := by
  unfold Machine.classifyStep
  split
  · split
    · exact (h.updHif c fun hf => bounded_capture hf _).driveStep ..
    · exact h.contraryStep ..
  · split
    · exact h
    · exact h.driftStep ..

theorem rangeSaturation (h : Acts s u) (c : Chan) : Acts s (rangeSaturation c u) := by
  have hv : Acts s (Machine.updHif c (fun f => { f with posValid := false }) u) := h.updHif c id
  unfold Machine.rangeSaturation
  dsimp only
  split
  · exact hv.enterFaultWith c _ fun hw => hw.setLevel ..
  · split <;> rename_i heq <;> cases congrArg Prod.snd heq
    · exact ((hv.aside ..).setLevel ..).enterFault ..
    · exact (hv.aside ..).enterFaultWith c _ fun hw => hw.setLevel ..

theorem hallStep (h : Acts s u) (c : Chan) (d : Dir) : Acts s (hallStep c d u) := by
  unfold Machine.hallStep
  dsimp only
  split
  · exact h.rangeSaturation ..
  · exact (h.updHif c fun hf => ⟨by dsimp only; omega, by dsimp only; omega, hf.2.2⟩).classifyStep ..

theorem quadratureError (h : Acts s u) (c : Chan) : Acts s (quadratureError c u) := by
  have hq : Acts s (Machine.updHif c (fun f => { f with quadErrors := satSucc 255 (u.ch c).hif.quadErrors }) u) :=
    h.updHif c fun ⟨h1, h2, h3, _, h5⟩ => ⟨h1, h2, h3, Nat.min_le_left .., h5⟩
  unfold Machine.quadratureError
  dsimp only
  split
  · split <;> rename_i heq <;> cases congrArg Prod.snd heq
    · exact ((hq.aside ..).postAt ..).enterFault ..
    · exact ((hq.aside ..).enterFault ..).postAt ..
  · exact hq.postAt ..

theorem accept (h : Acts s u) (c : Chan) (pair : Pair) : Acts s (accept c pair u) := by
  have hp : Acts s (Machine.updHif c (fun f => { f with phase := some pair, candidate := none, count := 0 }) u) :=
    h.updHif c id
  unfold Machine.accept
  dsimp only
  split
  · exact hp
  · split
    · exact hp
    · split
      · exact hp.hallStep ..
      · exact hp.quadratureError ..

/-! ## LDE -/

theorem takeNext (h : Acts s u) : Acts s (takeNext u) := by
  unfold Machine.takeNext
  split
  · next c _ _ =>
    split
    · next hf =>
      refine (h.updHif c fun ⟨h1, h2, h3, hrest⟩ => ⟨h1, h2, ?_, hrest⟩).aside ..
      rw [hf] at h3
      exact Nat.le_of_succ_le h3
    · exact h
  · exact h

/-- R42: S moves a quarter of the way to a figure within its range, and stays within it. -/
theorem smooth_bounds {a l : Int} (ha : -1024 ≤ a ∧ a ≤ 4095) (hl : -1024 ≤ l ∧ l ≤ 4095) :
    -1024 ≤ smooth a l ∧ smooth a l ≤ 4095 := by
  have h := Int.mul_tdiv_add_tmod (l - a) 4
  have h0 := Int.tmod_lt_of_pos (l - a) (show (0 : Int) < 4 by decide)
  have h1 := Int.lt_tmod_of_pos (l - a) (show (0 : Int) < 4 by decide)
  unfold smooth
  omega

theorem limitedFigure_bounds {l a : Int} (j : Nat) (ha : -1024 ≤ a ∧ a ≤ 4095) (hl : -1024 ≤ l ∧ l ≤ 4095) :
    -1024 ≤ limitedFigure l a j ∧ limitedFigure l a j ≤ 4095 := by
  unfold limitedFigure
  split <;> omega

theorem accumulate_le {a : Nat} (x : Int) (t : Nat) (ha : a ≤ 65535) : accumulate a x t ≤ 65535 := by
  unfold accumulate
  split <;> omega

theorem excessAfter_le (k : Option ZoneKind) (b : Bool) {a : Nat} (x : Int) (t : Nat)
    (ha : a ≤ 65535) : excessAfter k b a x t ≤ 65535 := by
  unfold excessAfter
  split
  · split
    · exact ha
    · exact accumulate_le x t ha
  · exact ha
  · exact Nat.zero_le _
  · exact ha

theorem bounded_fullStep (t : Take) (pc r : Nat) {k : LoadContext} (hk : k.Bounded) : (fullStep t pc r k).Bounded := by
  obtain ⟨h1, h2, h3⟩ := hk
  have hs := smooth_bounds ⟨h1, h2⟩ (limitedFigure_bounds t.cal.jolt ⟨h1, h2⟩
    (clampInt_bounds ((((pc : Int) - r) * 1024).tdiv r) (show (-1024 : Int) ≤ 4095 by decide)))
  exact ⟨hs.1, hs.2, excessAfter_le _ _ _ _ h3⟩

/-- The bounds look at S and A alone. -/
theorem bounded_congr {k k' : LoadContext} (hs : k'.smoothed = k.smoothed) (he : k'.excess = k.excess)
    (hk : k.Bounded) : k'.Bounded := by
  unfold LoadContext.Bounded
  rw [hs, he]
  exact hk

theorem bounded_treatRecord (t : Take) {k : LoadContext} (hk : k.Bounded) : (treatRecord t k).1.Bounded := by
  have common (d : Option Decision) (pc : Nat) {k' : LoadContext} (h : k'.Bounded) :
      (markDecided d (commonStep t pc k')).Bounded := bounded_congr (by simp) (by simp) h
  unfold treatRecord computedStep
  split; · exact hk
  split; · exact hk
  split; · exact hk
  split; · exact hk
  split; · exact hk
  dsimp only
  split
  · exact common _ _ (bounded_fullStep _ _ _ hk)
  · exact common _ _ hk

theorem markSupply (h : Acts s u) (c : Chan) : Acts s (markSupply c u) := by
  unfold Machine.markSupply
  split
  · split
    · exact h.updLearning ..
    · exact h
  · exact h

theorem completeTake (h : Acts s u) (t : Take) : Acts s (completeTake t u) := by
  have hfree : Acts s { u with lde := { u.lde with busy := none } } := h.aside ..
  have hctx := hfree.updCtx t.chan (f := fun _ => (treatRecord t (u.ch t.chan).ctx).1) (bounded_treatRecord t)
  have pinched {v : State} (hv : Acts s v) : Acts s (match (treatRecord t (u.ch t.chan).ctx).2 with
      | some d => Machine.pinch t.chan d.reason d.load t.record.pos v
      | none => v) := by
    split
    · exact hv.pinch ..
    · exact hv
  unfold Machine.completeTake
  dsimp only
  split
  · exact hfree
  · refine pinched ?_
    split
    · exact hctx.markSupply ..
    · exact hctx

/-! ## Supply, authority, groups -/

theorem crankChannel (h : Acts s u) (c : Chan) : Acts s (crankChannel u c) := by
  unfold Machine.crankChannel
  split
  · exact h.endReversal ..
  · exact h.endReversal ..
  · exact h.endOrder ..
  · exact h.endOrder ..
  · exact h.endOrder ..
  · exact h.endOrder ..
  · exact h.endOrder ..
  · exact h
  · exact h

theorem crankShutdown (h : Acts s u) : Acts s (crankShutdown u) := foldl (fun c hu => hu.crankChannel c) _ h

theorem refreshOrder (h : Acts s u) (c : Chan) : Acts s (refreshOrder c u) := h.updMoc ..

theorem noteOverride (h : Acts s u) (c : Chan) (k : Nat) : Acts s (noteOverride c k u) := by
  unfold Machine.noteOverride
  split
  · exact h
  · exact h.updAuth ..

theorem haltChannel (h : Acts s u) (c : Chan) : Acts s (haltChannel u c) := h.endOrder ..

theorem claimChannel (h : Acts s u) (x : Client) (c : Chan) : Acts s (claimChannel x u c) := by
  refine updAuth ?_ c _
  unfold Machine.stopForClaim
  split
  · exact h.endReversal ..
  · exact h.endOrder ..

theorem releaseClaim (h : Acts s u) (x : Client) (c : Chan) : Acts s (releaseClaim x u c) := h.updAuth ..

theorem lockChannel (h : Acts s u) (x : Client) (c : Chan) : Acts s (lockChannel x u c) := by
  have hl : Acts s (Machine.updAuth c (fun k => { k with lockouts := addClient k.lockouts x }) u) := h.updAuth ..
  unfold Machine.lockChannel
  dsimp only
  split
  · split
    · exact hl
    · exact hl.endOrder ..
  · exact hl

theorem unlockChannel (h : Acts s u) (x : Client) (c : Chan) : Acts s (unlockChannel x u c) := h.updAuth ..
theorem ackChannel (h : Acts s u) (c : Chan) : Acts s (ackChannel u c) := h.updMoc ..

theorem clearForRestart (h : Acts s u) (c : Chan) : Acts s (clearForRestart c u) :=
  (((((h.setPosition c (by decide) false).updHif c bounded_restart).updCtx c fun _ =>
    (by unfold LoadContext.Bounded; decide : resetContext.Bounded)).dropTake c).clearOverride c).updMoc ..

theorem restartMotion (h : Acts s u) (c : Chan) {after : State → State} (ha : ∀ {v}, Acts s v → Acts s (after v)) :
    Acts s (restartMotion c after u) := by
  unfold Machine.restartMotion
  split
  · exact ha (h.endReversalTo ..)
  · split
    · exact h.endOrderWith c _ _ id ha
    · exact ha (h.updMoc ..)

theorem restartChannel (h : Acts s u) (c : Chan) : Acts s (restartChannel u c) := by
  unfold Machine.restartChannel
  dsimp only
  split
  · exact h.restartMotion c fun hv => (hv.clearForRestart c).setLevel ..
  · split <;> rename_i heq <;> cases congrArg Prod.snd heq
    · exact ((h.aside ..).setLevel ..).restartMotion c fun hv => hv.clearForRestart c
    · exact (h.aside ..).restartMotion c fun hv => (hv.clearForRestart c).setLevel ..

theorem lapseChannel (h : Acts s u) (x : Client) (c : Chan) : Acts s (lapseChannel x u c) := h.updAuth ..

theorem skipMember (h : Acts s u) (g : Fin 4) (c : Chan) (r : Result) : Acts s (skipMember g c r u) := by
  unfold Machine.skipMember
  split
  · exact h.setGroup ..
  · exact h

theorem admitMember (g : Fin 4) (x : Client) (d : Dir) (org : Origin) {m : Admission} (h : Acts s m.state) (c : Chan) :
    Acts s (admitMember g x d org m c).state := by
  unfold Machine.admitMember
  split
  · exact h.skipMember ..
  · exact (h.handOver ..).settle

theorem cancelMember (h : Acts s u) (g : Fin 4) (c : Chan) : Acts s (cancelMember g u c) := by
  unfold Machine.cancelMember
  split
  · exact h.endOrder ..
  · exact h

end Sys2Proof.Machine.Acts
end

section
/-! What the commands may do: the bounds of queues, counters, contexts and records are kept (`Sound`), a request's owner
changes of the links no more than queues, lost counters and its own client's mask (`Serves`), and one that answers
neither DONE nor ACCEPTED changes nothing (`Owned`). -/

namespace Sys2Proof.Machine

/-! ## Folding over channels -/

/-- A fold whose step changes one channel treats each channel of the list once and no other. -/
theorem foldl_local {I : State → Prop} {P : Chan → Channel → Channel → Prop} {f : State → Chan → State}
    (hI : ∀ {s} c, I s → I (f s c)) (ho : ∀ {s} c, I s → OnlyChannel c s (f s c))
    (hP : ∀ {s} c, I s → P c (s.ch c) ((f s c).ch c)) {l : List Chan} (hn : l.Nodup) {s : State} (hs : I s) :
    I (l.foldl f s) ∧ (∀ c, c ∉ l → (l.foldl f s).ch c = s.ch c) ∧
      ∀ c ∈ l, P c (s.ch c) ((l.foldl f s).ch c) := by
  induction l generalizing s with
  | nil => exact ⟨hs, fun _ _ => rfl, nofun⟩
  | cons a l ih =>
    obtain ⟨ha, hl⟩ := List.nodup_cons.mp hn
    obtain ⟨ih1, ih2, ih3⟩ := ih hl (hI a hs)
    refine ⟨ih1, fun c hc => ?_, fun c hc => ?_⟩
    · rw [List.mem_cons, not_or] at hc
      rw [List.foldl_cons, ih2 c hc.2, ho a hs c hc.1]
    · rcases List.mem_cons.mp hc with rfl | hc
      · rw [List.foldl_cons, ih2 c ha]
        exact hP c hs
      · rw [List.foldl_cons, ← ho a hs c (fun e => ha (e ▸ hc))]
        exact ih3 c hc

theorem mem_allChans (c : Chan) : c ∈ allChans := by revert c; decide
theorem allChans_nodup : allChans.Nodup := by decide

/-- A fold over the eight channels. -/
theorem foldl_allChans {I : State → Prop} {P : Chan → Channel → Channel → Prop} {f : State → Chan → State}
    (hI : ∀ {s} c, I s → I (f s c)) (ho : ∀ {s} c, I s → OnlyChannel c s (f s c))
    (hP : ∀ {s} c, I s → P c (s.ch c) ((f s c).ch c)) {s : State} (hs : I s) :
    I (allChans.foldl f s) ∧ ∀ c, P c (s.ch c) ((allChans.foldl f s).ch c) := by
  obtain ⟨h1, -, h3⟩ := foldl_local hI ho hP allChans_nodup hs
  exact ⟨h1, fun c => h3 c (mem_allChans c)⟩

/-! ## The bounds, together -/

/-- R181 for one link. -/
def Link.Bounded (l : Link) : Prop := l.queue.length ≤ 16 ∧ l.lost ≤ 255

/-- The ranges of every record, and of the staging buffer. -/
def Ranged (s : State) : Prop := RecordsValid s ∧ StagingBounded s

/-- The bounds of queues, counters, load contexts and records are kept. -/
structure Sound (s t : State) : Prop where
  link : ∀ y, (s.link y).Bounded → (t.link y).Bounded
  hall : ∀ c, (s.ch c).hif.Bounded → (t.ch c).hif.Bounded
  load : ∀ c, (s.ch c).ctx.Bounded → (t.ch c).ctx.Bounded
  records : Ranged s → Ranged t

theorem Sound.refl (s : State) : Sound s s := ⟨fun _ => id, fun _ => id, fun _ => id, id⟩

theorem Sound.trans {s t u : State} (h : Sound s t) (k : Sound t u) : Sound s u :=
  ⟨fun y => k.link y ∘ h.link y, fun c => k.hall c ∘ h.hall c, fun c => k.load c ∘ h.load c, k.records ∘ h.records⟩

theorem Acts.sound {s t : State} (h : Acts s t) : Sound s t where
  link y hb := ⟨(h.link y).queue hb.1, (h.link y).lost hb.2⟩
  hall c := (h.ch c).hif
  load c := (h.ch c).ctx
  records := by
    rintro ⟨⟨hcal, hstored, hglob, hnvglob, hjob⟩, hstage⟩
    exact ⟨⟨fun c => (h.ch c).cal (hcal c), h.nvc ▸ hstored, h.glob ▸ hglob, h.nvc ▸ hnvglob, h.nvc ▸ hjob⟩,
      by unfold StagingBounded; rw [h.staging]; exact hstage⟩

/-- What the commands that are no RESET_N keep beside the bounds: the waiting commands and the sampled pins. -/
structure Stays (s t : State) : Prop extends Sound s t where
  pending : t.pending = s.pending
  pins : t.pins = { s.pins with stsel := t.pins.stsel }

theorem Stays.refl (s : State) : Stays s s := ⟨.refl s, rfl, rfl⟩

theorem Stays.trans {s t u : State} (h : Stays s t) (k : Stays t u) : Stays s u :=
  ⟨h.toSound.trans k.toSound, k.pending.trans h.pending, by rw [k.pins, h.pins]⟩

theorem Acts.stays {s t : State} (h : Acts s t) : Stays s t :=
  ⟨h.sound, h.pending, by rw [h.pins]⟩

/-- A change of one link that leaves its queue and lost counter within their bounds. -/
theorem stays_updLink (x : Client) {f : Link → Link} {s : State} (hf : (s.link x).Bounded → (f (s.link x)).Bounded) :
    Stays s (updLink x f s) where
  link y := by
    rw [link_updLink]
    split
    · next e => exact e ▸ hf
    · exact id
  hall _ := id
  load _ := id
  records h := h
  pending := rfl
  pins := rfl

/-- What a request's owner may do. -/
structure Serves (x : Client) (s t : State) : Prop extends Stays s t where
  own : t.link x = { s.link x with queue := (t.link x).queue, lost := (t.link x).lost, mask := (t.link x).mask }
  other : ∀ y, y ≠ x → t.link y = { s.link y with queue := (t.link y).queue, lost := (t.link y).lost }

namespace Serves
variable {x : Client} {s t u : State}

theorem refl (x : Client) (s : State) : Serves x s s := ⟨.refl s, rfl, fun _ _ => rfl⟩

theorem trans (h : Serves x s t) (k : Serves x t u) : Serves x s u :=
  ⟨h.toStays.trans k.toStays, by rw [k.own, h.own], fun y hy => by rw [k.other y hy, h.other y hy]⟩

theorem of_acts (h : Acts s t) : Serves x s t :=
  ⟨h.stays, by rw [(h.link x).frame], fun y _ => (h.link y).frame⟩

theorem acts (h : Serves x s t) (k : Acts t u) : Serves x s u := h.trans (of_acts k)

/-- An owner that leaves the links alone. -/
theorem of_links (h : Stays s t) (hl : t.links = s.links) : Serves x s t :=
  ⟨h, by rw [link_congr hl], fun y _ => by rw [link_congr hl]⟩

end Serves

/-- What the owner of a request of `x` answers in state `s`. -/
structure Owned (x : Client) (s : State) (a : Answer) : Prop where
  kept : a.result = .done ∨ a.result = .accepted ∨ a.state = s
  serves : Serves x s a.state

namespace Owned
variable {x : Client} {s : State}

theorem refuse (x : Client) (r : Result) (s : State) : Owned x s (refuse r s) := ⟨.inr (.inr rfl), .refl ..⟩
theorem done {t : State} (w : Word) (h : Serves x s t) : Owned x s ⟨.done, w, t⟩ := ⟨.inl rfl, h⟩
theorem accepted {t : State} (w : Word) (h : Serves x s t) : Owned x s ⟨.accepted, w, t⟩ := ⟨.inr (.inl rfl), h⟩
theorem read (w : Word) : Owned x s ⟨.done, w, s⟩ := done w (.refl ..)
theorem doneActs {t : State} (w : Word) (h : Acts s t) : Owned x s ⟨.done, w, t⟩ := done w (.of_acts h)
theorem acceptedActs {t : State} (w : Word) (h : Acts s t) : Owned x s ⟨.accepted, w, t⟩ := accepted w (.of_acts h)

theorem routed {body : State → Answer} (h : Owned x s (body s)) : Owned x s (routed body s) := by
  unfold Machine.routed
  split
  · exact h
  · exact refuse ..

end Owned

/-! ## CLI's own requests -/

section
variable (x : Client) (s : State)

theorem owned_identify (m : BitVec 4) (a : Word) : Owned x s
    (if 8 ≤ m.toNat ∨ a ≠ 0 then refuse .badArgument s else ⟨.done, s.identifyWord m.toNat, s⟩) := by
  split
  · exact .refuse ..
  · exact .read _

theorem owned_readPanel (p m : BitVec 4) (a : Word) : Owned x s (readPanel p m a s) := by
  unfold readPanel
  split; · exact .refuse ..
  split; · exact .read _
  split
  · exact .read _
  · exact .refuse ..

/-- An owner that changes nothing but the requester's own queue, lost counter and mask. -/
theorem serves_updLink {f : Link → Link} (hf : (s.link x).Bounded → (f (s.link x)).Bounded)
    (h : f (s.link x) = { s.link x with
      queue := (f (s.link x)).queue, lost := (f (s.link x)).lost, mask := (f (s.link x)).mask }) :
    Serves x s (updLink x f s) :=
  ⟨stays_updLink x hf, by rw [link_updLink_self]; exact h, fun y hy => by rw [link_updLink_ne (Ne.symm hy)]⟩

theorem owned_readEvent (m : BitVec 4) (a : Word) : Owned x s (readEvent x m a s) := by
  unfold readEvent
  split; · exact .refuse ..
  split; · exact .done _ (serves_updLink x s (fun hb => ⟨hb.1, Nat.zero_le _⟩) rfl)
  split
  · exact .read _
  · exact .refuse ..

theorem owned_popEvent (m : BitVec 4) (a : Word) : Owned x s (popEvent x m a s) := by
  unfold popEvent
  split; · exact .refuse ..
  split
  · next e rest hq =>
    refine .done _ (serves_updLink x s (fun hb => ⟨?_, hb.2⟩) rfl)
    have h16 := hb.1
    rw [hq] at h16
    exact Nat.le_of_succ_le h16
  · exact .refuse ..

theorem owned_setEventMask (m : BitVec 4) (a : Word) : Owned x s (setEventMask x m a s) := by
  unfold setEventMask
  split; · exact .refuse ..
  exact .done _ (serves_updLink x s id rfl)

end

/-! ## Authority -/

section
variable (x : Client) (s : State)

theorem owned_judgeMove (c : Chan) (d : Dir) (m : Mode) (org : Origin) (t : Target) :
    Owned x s (judgeMove x c d m org t s) := by
  unfold judgeMove
  split; · exact .refuse ..
  split; · exact .refuse ..
  split; · exact .acceptedActs _ ((Acts.refl s).refreshOrder c)
  split; · exact .refuse ..
  exact .acceptedActs _ (((Acts.refl s).noteOverride c _).handOver c _)

theorem owned_moveRequest (p m : BitVec 4) (a : Word) : Owned x s (moveRequest x p m a s) := by
  unfold moveRequest
  split
  · split
    · exact owned_judgeMove ..
    · exact .refuse ..
  · exact .refuse ..

theorem owned_haltRequest (p m : BitVec 4) (a : Word) : Owned x s (haltRequest x p m a s) := by
  unfold haltRequest
  split; · exact .refuse ..
  split
  · split
    · exact .doneActs _ (Acts.foldl (fun c hu => hu.haltChannel c) _ (.refl s))
    · exact .refuse ..
  · split; · exact .refuse ..
    split
    · exact .refuse ..
    · exact .doneActs _ ((Acts.refl s).haltChannel _)

theorem owned_stopClaimRequest (p m : BitVec 4) (a : Word) : Owned x s (stopClaimRequest x p m a s) := by
  unfold stopClaimRequest
  split; · exact .refuse ..
  split
  · split
    · exact .doneActs _ (Acts.foldl (fun c hu => hu.claimChannel x c) _ (.refl s))
    · exact .refuse ..
  · split; · exact .refuse ..
    split
    · exact .refuse ..
    · exact .doneActs _ ((Acts.refl s).claimChannel x _)

theorem owned_stopReleaseRequest (p m : BitVec 4) (a : Word) : Owned x s (stopReleaseRequest x p m a s) := by
  unfold stopReleaseRequest
  split; · exact .refuse ..
  split
  · exact .doneActs _ (Acts.foldl (fun c hu => hu.releaseClaim x c) _ (.refl s))
  · split; · exact .refuse ..
    split
    · exact .refuse ..
    · exact .doneActs _ ((Acts.refl s).releaseClaim x _)

theorem owned_lockoutSetRequest (p m : BitVec 4) (a : Word) : Owned x s (lockoutSetRequest x p m a s) := by
  unfold lockoutSetRequest
  split; · exact .refuse ..
  dsimp only
  split
  · exact .refuse ..
  · exact .doneActs _ (Acts.foldl (fun c hu => hu.lockChannel x c) _ (.refl s))

theorem owned_lockoutClearRequest (p m : BitVec 4) (a : Word) : Owned x s (lockoutClearRequest x p m a s) := by
  unfold lockoutClearRequest
  split; · exact .refuse ..
  split
  · exact .refuse ..
  · exact .doneActs _ (Acts.foldl (fun c hu => hu.unlockChannel x c) _ (.refl s))

theorem owned_ackReversalRequest (p m : BitVec 4) (a : Word) : Owned x s (ackReversalRequest x p m a s) := by
  unfold ackReversalRequest
  split; · exact .refuse ..
  split
  · exact .doneActs _ (Acts.foldl (fun c hu => hu.ackChannel c) _ (.refl s))
  · split; · exact .refuse ..
    split
    · exact .refuse ..
    · exact .doneActs _ ((Acts.refl s).ackChannel _)

theorem owned_panelRestartRequest (p m : BitVec 4) (a : Word) : Owned x s (panelRestartRequest x p m a s) := by
  unfold panelRestartRequest
  split; · exact .refuse ..
  split
  · dsimp only
    split; · exact .refuse ..
    split
    · exact .refuse ..
    · exact .doneActs _ (Acts.foldl (fun c hu => hu.restartChannel c) _ (.refl s))
  · split; · exact .refuse ..
    split
    · exact .refuse ..
    · exact .doneActs _ ((Acts.refl s).restartChannel _)

end

/-! ## Groups and learning -/

section
variable (x : Client) (s : State)

/-- R137: an entry taken changes the group table and the serial counter. -/
theorem stays_takeEntry (g : Fin 4) (d : Dir) (org : Origin) (cs : List Chan) :
    Stays s (takeEntry g x d org cs s) :=
  ⟨⟨fun _ => id, fun _ => id, fun _ => id, id⟩, rfl, rfl⟩

/-- R139: what the admission of the members does from the taken entry on. -/
theorem acts_admitMembers (g : Fin 4) (d : Dir) (org : Origin) (cs : List Chan) {m : Admission} {u : State}
    (h : Acts u m.state) : Acts u (cs.foldl (admitMember g x d org) m).state := by
  induction cs generalizing m with
  | nil => exact h
  | cons c cs ih => exact ih (h.admitMember g x d org c)

theorem owned_admitMembers (g : Fin 4) (d : Dir) (org : Origin) (cs : List Chan) :
    Owned x s (admitMembers g x d org cs s) := by
  have hm := acts_admitMembers x g d org cs (m := ⟨takeEntry g x d org cs s, none, false⟩) (.refl _)
  unfold admitMembers
  dsimp only
  split
  · exact .accepted _ ((Serves.of_links (stays_takeEntry ..) rfl).acts (hm.finishGroup g))
  · exact .refuse ..

theorem owned_groupMoveRequest (p m : BitVec 4) (a : Word) : Owned x s (groupMoveRequest x p m a s) := by
  unfold groupMoveRequest
  split
  · dsimp only
    split; · exact .refuse ..
    split; · exact .refuse ..
    exact owned_admitMembers ..
  · exact .refuse ..

theorem owned_groupCancelRequest (p m : BitVec 4) (a : Word) : Owned x s (groupCancelRequest x p m a s) := by
  unfold groupCancelRequest
  dsimp only
  split; · exact .refuse ..
  split; · exact .refuse ..
  split; · exact .refuse ..
  split; · exact .refuse ..
  split; · exact .refuse ..
  exact .doneActs _ (Acts.foldl (fun c hu => hu.cancelMember _ c) _ (.refl s))

theorem owned_readGroupRequest (p m : BitVec 4) (a : Word) : Owned x s (readGroupRequest p m a s) := by
  unfold readGroupRequest
  split; · exact .refuse ..
  split; · exact .refuse ..
  split
  · unfold State.groupField
    split
    · exact .read _
    · exact .read _
    · exact .read _
    · exact .read _
    · dsimp only
      split
      · exact .read _
      · exact .refuse ..
  · exact .refuse ..

theorem owned_learnRequest (p : BitVec 4) (a : Word) (k : RunKind) (ph : Phase) (need : Level) :
    Owned x s (learnRequest x p a k ph need s) := by
  unfold learnRequest
  split; · exact .refuse ..
  split; · exact .refuse ..
  split
  · exact .refuse ..
  · exact .acceptedActs _ (((Acts.refl s).updLearning ..).handOver ..)

theorem owned_forgetRequest (p : BitVec 4) (a : Word) : Owned x s (forgetRequest x p a s) := by
  unfold forgetRequest
  split; · exact .refuse ..
  next c _ =>
  split
  · exact .refuse ..
  · refine .doneActs _ ?_
    have hcal : Acts s (updCal c (fun r =>
        ({ r with travel := none, profile := none, adaptations := 0 }).markChanged) s) :=
      (Acts.refl s).updCal c fun hv => Acts.valid_of_travel hv none none 0 true true nofun nofun (Nat.zero_le _)
    unfold forgetChannel
    split
    · dsimp only
      split
      · exact hcal.setLevel ..
      · exact hcal
    · exact .refl s

end

end Sys2Proof.Machine
end

section
/-! The requests and completions of CCS and NVC: the records they write lie within their ranges (sections 4.1, 4.3,
4.5; R64 to R69, R185 to R191). -/

namespace Sys2Proof.Machine

/-! ## Ranges of records -/

theorem valid_defaultCal : defaultCal.valid :=
  ⟨nofun, nofun, by decide, by unfold startsInRange; decide, by decide, by decide, by decide, by decide, by decide,
    by decide, by decide, by decide, by decide, by decide, by decide, by decide⟩

theorem valid_defaultGlobal : defaultGlobal.valid := by unfold GlobalRecord.valid; decide

/-- The flags and the companion of a record have no range. -/
theorem CalRecord.valid_flags {r : CalRecord} (h : r.valid) (p : Bool) (q : Option Chan) (pol : Polarity) (b b' : Bool) :
    ({ r with populated := p, companion := q, polarity := pol, unsaved := b, changed := b' } : CalRecord).valid := h

theorem GlobalRecord.valid_flags {g : GlobalRecord} (h : g.valid) (l b b' : Bool) :
    ({ g with locked := l, unsaved := b, changed := b' } : GlobalRecord).valid := h

/-- Section 4.5: a value admitted for selector `n` leaves the record within its ranges. -/
theorem valid_setParam {s : State} {d : Chan} {n v : Nat} {r : CalRecord} (hv : r.valid)
    (h : s.paramOk d n v = true) : (r.setParam n v).valid := by
  have hw : (r.withParam n v).valid := by
    obtain ⟨h1, h2, h3, h4, h5, h6, h7, h8, h9, h10, h11, h12, h13, h14, h15, h16⟩ := hv
    have pair {p q : Prop} [Decidable p] [Decidable q] (hb : (decide p && decide q) = true) : p ∧ q := by simpa using hb
    match n, h with
    | 0, _ => exact ⟨h1, h2, h3, h4, h5, h6, h7, h8, h9, h10, h11, h12, h13, h14, h15, h16⟩
    | 1, h => exact ⟨h1, h2, h3, h4, pair h, h6, h7, h8, h9, h10, h11, h12, h13, h14, h15, h16⟩
    | 2, h => exact ⟨h1, h2, h3, h4, h5, pair h, h7, h8, h9, h10, h11, h12, h13, h14, h15, h16⟩
    | 3, h => exact ⟨h1, h2, h3, h4, h5, h6, pair h, h8, h9, h10, h11, h12, h13, h14, h15, h16⟩
    | 4, h => exact ⟨h1, h2, h3, h4, h5, h6, h7, pair h, h9, h10, h11, h12, h13, h14, h15, h16⟩
    | 5, h => exact ⟨h1, h2, h3, h4, h5, h6, h7, h8, of_decide_eq_true h, h10, h11, h12, h13, h14, h15, h16⟩
    | 6, h => exact ⟨h1, h2, h3, h4, h5, h6, h7, h8, h9, of_decide_eq_true h, h11, h12, h13, h14, h15, h16⟩
    | 7, h => exact ⟨h1, h2, h3, h4, h5, h6, h7, h8, h9, h10, pair h, h12, h13, h14, h15, h16⟩
    | 8, h => exact ⟨h1, h2, h3, h4, h5, h6, h7, h8, h9, h10, h11, of_decide_eq_true h, h13, h14, h15, h16⟩
    | 9, h => exact ⟨h1, h2, h3, h4, h5, h6, h7, h8, h9, h10, h11, h12, pair h, h14, h15, h16⟩
    | 10, _ => exact ⟨h1, h2, h3, h4, h5, h6, h7, h8, h9, h10, h11, h12, h13, h14, h15, h16⟩
    | 11, _ => exact ⟨h1, h2, h3, h4, h5, h6, h7, h8, h9, h10, h11, h12, h13, h14, h15, h16⟩
    | 12, h => exact ⟨h1, h2, h3, h4, h5, h6, h7, h8, h9, h10, h11, h12, h13, of_decide_eq_true h, h15, h16⟩
    | 13, h => exact ⟨h1, h2, h3, h4, h5, h6, h7, h8, h9, h10, h11, h12, h13, h14, of_decide_eq_true h, h16⟩
    | _ + 14, h => exact absurd h Bool.false_ne_true
  unfold CalRecord.setParam
  split
  · exact hv
  · exact hw

/-- R69, section 4.3: a valid list within the range of its starts may replace a record's zones. -/
theorem CalRecord.valid_withZones {r : CalRecord} (h : r.valid) {zones : List Zone} (hz : zonesValid zones = true)
    (hs : startsInRange zones) : ({ r with zones := zones } : CalRecord).markChanged.valid := by
  obtain ⟨h1, h2, _, _, hrest⟩ := h
  exact ⟨h1, h2, hz, hs, hrest⟩

/-- The links, the counters and the contexts stand; the records stay within their ranges. -/
theorem Stays.of_records {s t : State} (hl : t.links = s.links) (hc : t.chans = s.chans)
    (hp : t.pending = s.pending) (hpins : t.pins = { s.pins with stsel := t.pins.stsel }) (hr : Ranged s → Ranged t) :
    Stays s t :=
  ⟨⟨fun y => by rw [link_congr hl]; exact id, fun c => by rw [ch_congr hc]; exact id,
    fun c => by rw [ch_congr hc]; exact id, hr⟩, hp, hpins⟩

/-- A working record changes to one within its ranges. -/
theorem stays_updCal (c : Chan) {f : CalRecord → CalRecord} {s : State} (hf : Ranged s → (f (s.ch c).cal).valid) :
    Stays s (updCal c f s) where
  link _ := id
  hall d := by rw [updCal_id_hif]; exact id
  load d := by
    rw [updCal_eq, ch_updChan]
    split <;> exact id
  records := fun h@⟨⟨h1, hrest⟩, hst⟩ => by
    refine ⟨⟨fun d => ?_, hrest⟩, hst⟩
    rw [updCal_eq, ch_updChan]
    split
    · next e => exact e ▸ hf h
    · exact h1 d
  pending := rfl
  pins := rfl

theorem Stays.acts {s t u : State} (h : Stays s t) (k : Acts t u) : Stays s u := h.trans k.stays

theorem Stays.post {s t : State} (h : Stays s t) (k : EventKind) (c : Option Chan) (w d : Word) :
    Stays s (post k c w d t) := h.acts ((Acts.refl t).post ..)

theorem serves_updGlobal (x : Client) {f : GlobalRecord → GlobalRecord} {s : State}
    (hf : s.glob.valid → (f s.glob).valid) : Serves x s (updGlobal f s) :=
  .of_links (.of_records rfl rfl rfl rfl fun ⟨⟨h1, h2, h3, h4, h5⟩, h6⟩ => ⟨⟨h1, h2, hf h3, h4, h5⟩, h6⟩) rfl

theorem serves_staging (x : Client) {st : Staging} {s : State}
    (hf : StagingBounded s → st.records.length ≤ 6 ∧ startsInRange st.records) : Serves x s { s with staging := st } :=
  .of_links (.of_records rfl rfl rfl rfl fun ⟨h1, h2⟩ => ⟨h1, hf h2⟩) rfl

theorem serves_discardStaging (x : Client) (s : State) : Serves x s (discardStaging s) :=
  serves_staging x fun _ => ⟨Nat.zero_le _, nofun⟩

/-- R188: an operation begins with a snapshot of a record in its ranges. -/
theorem serves_beginJob (x : Client) {job : NvJob} (us : Nat) {s : State} (hj : Ranged s → job.valid) :
    Serves x s (beginJob job us s) :=
  .of_links (.of_records rfl rfl rfl rfl fun h@⟨⟨h1, h2, h3, h4, _⟩, h6⟩ =>
    ⟨⟨h1, h2, h3, h4, fun b hb => by cases hb; exact hj h⟩, h6⟩) rfl

/-! ## SET PARAMETER (R59, R61 to R63) -/

theorem Acts.applyPopulated {s u : State} (h : Acts s u) (c : Chan) : Acts s (applyPopulated c u) :=
  (((h.setPosition c (by decide) false).updHif c Acts.bounded_restart).updChan c ⟨id, id, id⟩).updMoc ..

theorem Acts.setPopulated {s u : State} (h : Acts s u) (c : Chan) (b : Bool) : Acts s (setPopulated c b u) := by
  unfold Machine.setPopulated
  split
  · exact h
  · exact Acts.applyPopulated (h.updCal c id) c

theorem Acts.writeChannelParam {s u : State} (h : Acts s u) {c : Chan} {n v : Nat} (hv : u.paramOk c n v = true) :
    Acts s (writeChannelParam c n v u) := by
  have hc : Acts s (Machine.updCal c (CalRecord.setParam n v) u) := h.updCal c fun hr => valid_setParam hr hv
  unfold Machine.writeChannelParam
  split
  · exact h.setPopulated ..
  · dsimp only
    split
    · exact hc.testFollowers
    · exact hc

/-- What the first failing check of a list says of one check of it. -/
theorem firstFailing_none {l : List (Option Result)} (h : firstFailing l = none) : ∀ r ∈ l, r = none := by
  induction l with
  | nil => nofun
  | cons r l ih =>
    cases r with
    | some r => cases h
    | none => exact List.forall_mem_cons.mpr ⟨rfl, ih h⟩

theorem failsIf_eq_none {b : Bool} {r : Result} : failsIf b r = none ↔ b = false := by
  cases b <;> simp [failsIf]

section
variable (x : Client) (s : State)

theorem owned_setChannelParam (c : Chan) (n v : Nat) : Owned x s (setChannelParam x c n v s) := by
  unfold setChannelParam
  split
  · exact .refuse ..
  · next h =>
    have hok : s.paramOk c n v = true := by
      simpa [failsIf_eq_none] using firstFailing_none h (failsIf (!s.paramOk c n v) .badArgument) (by simp)
    exact .doneActs _ ((Acts.refl s).writeChannelParam hok)

/-- R63: a value admitted for a selector of the global record leaves it within its ranges. -/
theorem serves_setGlobal {f : GlobalRecord → GlobalRecord} (hf : s.glob.valid → (f s.glob).valid) :
    Serves x s (setGlobal f s) := by
  refine serves_updGlobal x fun hg => ?_
  split
  · exact hg
  · exact hf hg

theorem valid_withRights {g : GlobalRecord} (h : g.valid) (y : Client) {r : Rights}
    (hr : y = 3 → r.rights.getLsbD (rightBit .calibrate) = true) :
    ({ g with rights := g.rights.set y r } : GlobalRecord).valid := by
  refine ⟨h.1, h.2.1, ?_⟩
  by_cases hy : y = 3
  · subst hy
    simpa using hr rfl
  · have hy' : y.val ≠ 3 := fun e => hy (Fin.ext e)
    simpa [Vector.getElem_set_ne, hy'] using h.2.2

theorem Acts.retimeSpacing {s u : State} (h : Acts s u) : Acts s (retimeSpacing u) := by
  unfold Machine.retimeSpacing
  exact (h.aside ..).push _

theorem serves_writeGlobalParam {n : Nat} {a : Word} (hn : n < 7) (h : s.globalOk n a = true) :
    Serves x s (writeGlobalParam n a s) := by
  unfold writeGlobalParam
  split
  · have hb : 1 ≤ a.toNat ∧ a.toNat ≤ 4 := by simpa [State.globalOk] using h
    exact serves_setGlobal x s (f := fun g => { g with ns := a.toNat }) fun hg => ⟨hb, hg.2⟩
  · have hb : 2 ≤ a.toNat ∧ a.toNat ≤ 20 := by simpa [State.globalOk] using h
    exact (serves_setGlobal x s (f := fun g => { g with ts := a.toNat }) fun hg => ⟨hg.1, hb, hg.2.2⟩).acts
      (Acts.refl _).retimeSpacing
  · exact .of_acts (Acts.foldl (fun c hu => hu.setPopulated c _) _ (.refl s))
  · next h0 h1 h2 =>
    split
    · next r hr =>
      refine serves_setGlobal x s fun hg => valid_withRights hg _ fun h3 => ?_
      have h6 : n = 6 := by
        have : n ≠ 0 ∧ n ≠ 1 ∧ n ≠ 2 := ⟨h0, h1, h2⟩
        have hval : (n - 3) % 4 = 3 := congrArg Fin.val h3
        omega
      subst h6
      simpa [State.globalOk, hr] using h
    · exact .refl ..

theorem owned_setGlobalParam (n : Nat) (a : Word) : Owned x s (setGlobalParam x n a s) := by
  unfold setGlobalParam
  split
  · exact .refuse ..
  · next h =>
    have hn : n < 7 := by
      simpa [failsIf_eq_none] using firstFailing_none h (failsIf (decide (7 ≤ n)) .badArgument) (by simp)
    have hok : s.globalOk n a = true := by
      simpa [failsIf_eq_none] using firstFailing_none h (failsIf (!s.globalOk n a) .badArgument) (by simp)
    exact .done _ (serves_writeGlobalParam x s hn hok)

theorem owned_setParameterRequest (p m : BitVec 4) (a : Word) : Owned x s (setParameterRequest x p m a s) := by
  unfold setParameterRequest
  split; · exact owned_setGlobalParam ..
  split
  · exact owned_setChannelParam ..
  · exact .refuse ..

theorem owned_readParameterRequest (p m : BitVec 4) (a : Word) : Owned x s (readParameterRequest p m a s) := by
  unfold readParameterRequest
  split; · exact .refuse ..
  split
  · split
    · exact .refuse ..
    · exact .read _
  · split
    · exact .read _
    · exact .refuse ..

theorem owned_readProfileRequest (p m : BitVec 4) (a : Word) : Owned x s (readProfileRequest p m a s) := by
  unfold readProfileRequest
  split
  · split
    · unfold readProfile
      split
      · split
        · exact .refuse ..
        · split
          · exact .read _
          · exact .refuse ..
      · exact .read _
      · split; · exact .refuse ..
        split
        · exact .read _
        · exact .refuse ..
    · exact .refuse ..
  · exact .refuse ..

/-! ## The ZONE requests -/

theorem owned_zoneRequest (p : BitVec 4) (malformed : Bool) {body : Chan → State → Answer}
    (h : ∀ c, Owned x s (body c s)) : Owned x s (zoneRequest x p malformed body s) := by
  unfold zoneRequest
  split; · exact .refuse ..
  split
  · exact .refuse ..
  · exact h _

theorem owned_zoneBegin (c : Chan) : Owned x s (zoneBegin x c s) :=
  .done _ (serves_staging x fun _ => ⟨Nat.zero_le _, nofun⟩)

/-- R67: a new record starts where the request says. -/
@[simp] theorem newZone_start (l : List Zone) (n : Nat) : (newZone l n).start = n := by
  unfold newZone
  split <;> rfl

theorem owned_zonePutStart (n : Nat) (c : Chan) : Owned x s (zonePutStart x n c s) := by
  unfold zonePutStart
  dsimp only
  split
  · exact .refuse ..
  · next h =>
    rw [not_or, not_or] at h
    refine .done _ (serves_staging x fun hb => ⟨?_, fun z hz => ?_⟩)
    · simp only [List.length_append, List.length_singleton]
      omega
    · rcases List.mem_append.mp hz with hz | hz
      · exact hb.2 z hz
      · rw [List.mem_singleton.mp hz, newZone_start]
        omega

/-- R68: a field set leaves the start as it was. -/
theorem Zone.put_start {z z' : Zone} {n : Nat} {a : Word} (h : z.put n a = some z') : z'.start = z.start := by
  unfold Zone.put at h
  split at h
  · obtain ⟨k, _, rfl⟩ := Option.map_eq_some_iff.mp h
    rfl
  all_goals cases h; rfl

theorem owned_zonePutField (n : Nat) (a : Word) (c : Chan) : Owned x s (zonePutField x n a c s) := by
  unfold zonePutField
  split
  · split
    · next z hz =>
      obtain ⟨last, hlast, hput⟩ := Option.bind_eq_some_iff.mp hz
      have hmem : last ∈ s.staging.records := List.mem_of_getLast? hlast
      refine .done _ (serves_staging x fun hb => ⟨?_, fun w hw => ?_⟩)
      · have hpos : 0 < s.staging.records.length := List.length_pos_of_mem hmem
        have h6 := hb.1
        simp only [List.length_append, List.length_dropLast, List.length_singleton]
        omega
      · rcases List.mem_append.mp hw with hw | hw
        · exact hb.2 w (List.mem_of_mem_dropLast hw)
        · rw [List.mem_singleton.mp hw, Zone.put_start hput]
          exact hb.2 last hmem
    · exact .refuse ..
  · exact .refuse ..

theorem owned_zoneCommit (c : Chan) : Owned x s (zoneCommit x c s) := by
  unfold zoneCommit
  dsimp only
  split
  · next h =>
    rw [Bool.and_eq_true] at h
    have hcal := stays_updCal (s := s) c (f := fun k => ({ k with zones := s.staging.records }).markChanged)
      fun hr => CalRecord.valid_withZones (hr.1.1 c) h.2 hr.2.2
    exact .done _ ((Serves.of_links hcal rfl).trans (serves_discardStaging x _))
  · exact .refuse ..

theorem owned_zoneAbandon (c : Chan) : Owned x s (zoneAbandon x c s) := by
  unfold zoneAbandon
  split; · exact .read _
  split
  · exact .done _ (serves_discardStaging x s)
  · exact .refuse ..

/-! ## STORE, CAL LOCK, CAL ERASE -/

theorem owned_storeRequest (p m : BitVec 4) (a : Word) : Owned x s (storeRequest x p m a s) := by
  unfold storeRequest
  dsimp only
  split; · exact .refuse ..
  split
  · next c _ =>
    exact .done _ ((serves_beginJob x (job := .storeChannel c (s.ch c).cal.clean) 35000 fun h => h.1.1 c).acts
      ((Acts.refl _).updCal c (f := fun r => { r with changed := false }) id))
  · exact .done _ ((serves_beginJob x (job := .storeGlobal s.glob.clean) 10000 fun h => h.1.2.2.1).trans
      (serves_updGlobal x (f := fun g => { g with changed := false }) id))

theorem owned_calLockRequest (p m : BitVec 4) (a : Word) : Owned x s (calLockRequest x p m a s) := by
  unfold calLockRequest
  split; · exact .refuse ..
  split
  · exact .read _
  · have hlock : Serves x s (updGlobal (fun g => { g with locked := true, changed := false }) s) :=
      serves_updGlobal x id
    exact .done _ ((hlock.trans (serves_discardStaging ..)).trans
      (serves_beginJob x (job := .lockWrite ({ s.glob with locked := true } : GlobalRecord).clean) 10000
        fun h => h.1.2.2.1))

theorem Acts.eraseChannel {s u : State} (h : Acts s u) (c : Chan) : Acts s (eraseChannel u c) := by
  have hcal : Acts s (Machine.updCal c (fun _ => defaultCal) u) := h.updCal c fun _ => valid_defaultCal
  have lowered {v : State} (hv : Acts s v) : Acts s
      (if levelCode .closedKnown < levelCode (v.ch c).level then
        Machine.setLevel c .closedKnown (v.ch c).hif.pos v else v) := by
    split
    · exact hv.setLevel ..
    · exact hv
  unfold Machine.eraseChannel
  dsimp only
  refine lowered ?_
  split
  · exact hcal
  · exact hcal.applyPopulated c

theorem owned_calEraseRequest (p m : BitVec 4) (a : Word) : Owned x s (calEraseRequest x p m a s) := by
  unfold calEraseRequest
  split
  · exact .refuse ..
  · have hglob : Serves x s { s with glob := defaultGlobal } :=
      serves_updGlobal x (f := fun _ => defaultGlobal) fun _ => valid_defaultGlobal
    exact .done _ (((hglob.acts (Acts.foldl (fun c hu => hu.eraseChannel c) _ (.refl _))).trans
      (serves_discardStaging ..)).trans (serves_beginJob x 60000 fun _ => trivial))

end

/-! ## Completions and the start-up load -/

section
variable {s : State}

/-- The image changes: every record of it stays within its ranges. -/
theorem stays_nvc {v : Nvc} (hv : Ranged s → (∀ c : Chan, v.channels[c].contents.valid) ∧ v.glob.contents.valid ∧
    ∀ b, v.busy = some b → b.job.valid) : Stays s { s with nvc := v } :=
  .of_records rfl rfl rfl rfl fun h@⟨⟨h1, _, h3, _⟩, h6⟩ =>
    have ⟨k1, k2, k3⟩ := hv h
    ⟨⟨h1, k1, h3, k2, k3⟩, h6⟩

theorem stays_clearBusy : Stays s (clearBusy s) := stays_nvc fun ⟨⟨_, h2, _, h4, _⟩, _⟩ => ⟨h2, h4, nofun⟩

theorem getElem_set_chan {α : Type} (v : Vector α 8) (c d : Chan) (r : α) :
    (v.set c r)[d] = if d = c then r else v[d] := by
  by_cases h : d = c
  · subst h; simp
  · have h' : (c : Nat) ≠ (d : Nat) := fun e => h (Fin.ext e.symm)
    simp [h, Vector.getElem_set_ne, h']

theorem stays_channelWritten {c : Chan} {r : CalRecord} (hr : Ranged s → r.valid) (valid : Bool) :
    Stays s (channelWritten c r valid s) := by
  have hnv : Stays s { s with nvc := storeChannelRecord c (writtenRecord c.val valid r) s.nvc } :=
    stays_nvc fun h@⟨⟨_, h2, _, h4, h5⟩, _⟩ => ⟨fun d => by
      change ((s.nvc.channels.set c _)[d]).contents.valid
      rw [getElem_set_chan]
      split
      · exact hr h
      · exact h2 d, h4, h5⟩
  have hcal := hnv.acts ((Acts.refl _).updCal c
    (f := fun r => { r with unsaved := unsavedAfter valid r.unsaved r.changed }) id)
  unfold channelWritten storeDone
  exact (hcal.trans stays_clearBusy).post ..

theorem stays_globalWritten {g : GlobalRecord} (hg : Ranged s → g.valid) (valid : Bool) :
    Stays s (globalWritten g valid s) := by
  have hnv : Stays s { s with nvc := { s.nvc with glob := writtenRecord globalNumber valid g } } :=
    stays_nvc fun h@⟨⟨_, h2, _, _, h5⟩, _⟩ => ⟨h2, hg h, h5⟩
  have hglob := hnv.trans (serves_updGlobal 0
    (f := fun g => { g with unsaved := unsavedAfter valid g.unsaved g.changed }) id).toStays
  unfold globalWritten storeDone
  exact (hglob.trans stays_clearBusy).post ..

theorem stays_imageErased : Stays s (imageErased s) := by
  have hblank : Stays s { s with nvc := blankImage } := stays_nvc fun _ =>
    ⟨fun c => by simpa [blankImage, blankRecord] using valid_defaultCal, valid_defaultGlobal, fun _ h => nomatch h⟩
  unfold imageErased storeDone
  exact hblank.post ..

theorem valid_loadChannelRecord {n : Nat} {r : Stored CalRecord} (h : r.contents.valid) :
    (loadChannelRecord n r).valid := by
  unfold loadChannelRecord
  split
  · exact h
  · exact valid_defaultCal
  · exact valid_defaultCal

theorem valid_loadGlobalRecord {r : Stored GlobalRecord} (h : r.contents.valid) : (loadGlobalRecord r).valid := by
  unfold loadGlobalRecord
  split
  · exact h
  · exact valid_defaultGlobal
  · exact valid_defaultGlobal

theorem valid_working {v : Nvc} (h : ∀ c : Chan, v.channels[c].contents.valid) (p : Chan) : (v.working p).valid := by
  have hl : (v.loaded p).valid := valid_loadChannelRecord (h p)
  unfold Nvc.working
  split
  · split
    · exact hl
    · exact hl
  · exact hl

/-- R186: what the load makes of one channel. -/
theorem stays_loadChannel (u : State) (c : Chan) : Stays u (loadChannel u c) := by
  have hcal : Stays u (updCal c (fun _ => u.nvc.working c) u) := stays_updCal c fun h => valid_working h.1.2.1 c
  unfold loadChannel
  dsimp only
  split
  · exact hcal.acts ((Acts.refl _).updMoc ..)
  · exact hcal.acts (((Acts.refl _).applyPopulated c).updMoc ..)

theorem Stays.foldl {α : Type} {f : State → α → State} (hf : ∀ u a, Stays u (f u a)) (l : List α) (u : State) :
    Stays u (l.foldl f u) := by
  induction l generalizing u with
  | nil => exact .refl u
  | cons a l ih => exact (hf u a).trans (ih _)

theorem stays_ready (u : State) (b b' : Bool) (st : StatusBus) :
    Stays u { u with calLoaded := b, ready := b', stb := st } := .of_records rfl rfl rfl rfl fun h => h

theorem stays_loadAll : Stays s (loadAll s) := by
  have hglob : Stays s { s with glob := loadGlobalRecord s.nvc.glob } :=
    .of_records rfl rfl rfl rfl fun ⟨⟨h1, h2, _, h4, h5⟩, h6⟩ =>
      ⟨⟨h1, h2, valid_loadGlobalRecord h4, h4, h5⟩, h6⟩
  unfold loadAll
  dsimp only
  refine Stays.post ?_ ..
  exact (hglob.trans (.foldl stays_loadChannel allChans _)).trans (stays_ready ..)

/-! ## Lapse and supply -/

theorem stays_lapse (x : Client) : Stays s (lapse x s) := by
  have hfold := (stays_updLink (s := s) x (f := fun l => { l with lapsed := true }) id).trans
    (Acts.foldl (fun c hu => hu.lapseChannel x c) allChans (.refl _)).stays
  unfold lapse
  refine Stays.post ?_ ..
  split
  · exact hfold.trans (serves_discardStaging x _).toStays
  · exact hfold

theorem stays_evaluateSupply : Stays s (evaluateSupply s) := by
  unfold evaluateSupply
  dsimp only
  split
  · have hpost : Stays s (post .supplyState none 0 (supplyDetail s.sup.next s.sup.reading)
        { s with sup := { s.sup with state := s.sup.next, exitRun := 0 } }) :=
      Stays.post (s := s) (t := { s with sup := { s.sup with state := s.sup.next, exitRun := 0 } })
        (.of_records rfl rfl rfl rfl fun h => h) ..
    split
    · exact hpost.trans (Acts.refl _).crankShutdown.stays
    · exact hpost
  · exact .refl s

end

end Sys2Proof.Machine
end

section
/-! The commands as a whole: each answers a next state, keeps the queue and the pins, the bounds of chapters 1, 3, 4
and 10, and, being a request, touches of the other links only queues and lost counters. -/

namespace Sys2Proof.Machine

/-! ## Requests (R171, R175) -/

/-- The requests that CLI answers NOT_READY until READY (R175). -/
def Gated (i : Instr) (code : Byte) : Prop :=
  i.wellFormed = true ∧ assignedCode code = true ∧ code ≠ 0x00 ∧ code ≠ 0x21 ∧ code ≠ 0x22 ∧ code ≠ 0x24

/-- R171, R175: a request is the frame received, its owner's answer with what that leaves to be done, and the reply. -/
theorem exec_request {i : Instr} {x : Client} {code : Byte} {p m : BitVec 4} {a : Word}
    (h : requestFields i = some (x, code, p, m, a)) :
    ∃ body, (∀ s, exec i s = serve x body s) ∧ (∀ u, Owned x u (body u)) ∧
      (Gated i code → ∀ u, u.ready = false → body u = refuse .notReady u) := by
  have gate (body : State → Answer) (hb : ∀ u, Owned x u (body u)) (he : ∀ s, exec i s = serve x (routed body) s) :
      ∃ body, (∀ s, exec i s = serve x body s) ∧ (∀ u, Owned x u (body u)) ∧
        (Gated i code → ∀ u, u.ready = false → body u = refuse .notReady u) :=
    ⟨routed body, he, fun u => (hb u).routed, fun _ u hu => if_neg (by simp [hu])⟩
  cases i with
  | nop =>
    cases h
    exact ⟨fun u => ⟨.done, 0, u⟩, fun _ => rfl, fun _ => .read _, fun ⟨_, _, h0, _⟩ => absurd rfl h0⟩
  | readEvent x p m a =>
    cases h
    exact ⟨readEvent x m a, fun _ => rfl, fun u => owned_readEvent .., fun ⟨_, _, _, h1, _⟩ => absurd rfl h1⟩
  | popEvent x p m a =>
    cases h
    exact ⟨popEvent x m a, fun _ => rfl, fun u => owned_popEvent .., fun ⟨_, _, _, _, h2, _⟩ => absurd rfl h2⟩
  | identify x p m a =>
    cases h
    exact ⟨fun u => if 8 ≤ m.toNat ∨ a ≠ 0 then refuse .badArgument u else ⟨.done, u.identifyWord m.toNat, u⟩,
      fun _ => rfl, fun u => owned_identify .., fun ⟨_, _, _, _, _, h4⟩ => absurd rfl h4⟩
  | undefinedRequestCode =>
    cases h
    refine ⟨refuse .badArgument, fun _ => rfl, fun u => .refuse .., fun ⟨hwf, hc, _⟩ => ?_⟩
    rw [Instr.wellFormed, hc] at hwf
    cases hwf
  | move x p m a => cases h; exact gate (moveRequest x p m a) (fun u => owned_moveRequest ..) fun _ => rfl
  | halt x p m a => cases h; exact gate (haltRequest x p m a) (fun u => owned_haltRequest ..) fun _ => rfl
  | stopClaim x p m a =>
    cases h
    exact gate (stopClaimRequest x p m a)
      (fun u => owned_stopClaimRequest ..) fun _ => rfl
  | stopRelease x p m a =>
    cases h
    exact gate (stopReleaseRequest x p m a)
      (fun u => owned_stopReleaseRequest ..) fun _ => rfl
  | lockoutSet x p m a =>
    cases h
    exact gate (lockoutSetRequest x p m a)
      (fun u => owned_lockoutSetRequest ..) fun _ => rfl
  | lockoutClear x p m a =>
    cases h
    exact gate (lockoutClearRequest x p m a)
      (fun u => owned_lockoutClearRequest ..) fun _ => rfl
  | ackReversal x p m a =>
    cases h
    exact gate (ackReversalRequest x p m a)
      (fun u => owned_ackReversalRequest ..) fun _ => rfl
  | panelRestart x p m a =>
    cases h
    exact gate (panelRestartRequest x p m a)
      (fun u => owned_panelRestartRequest ..) fun _ => rfl
  | groupMove x p m a =>
    cases h
    exact gate (groupMoveRequest x p m a)
      (fun u => owned_groupMoveRequest ..) fun _ => rfl
  | groupCancel x p m a =>
    cases h
    exact gate (groupCancelRequest x p m a)
      (fun u => owned_groupCancelRequest ..) fun _ => rfl
  | readGroup x p m a => cases h; exact gate (readGroupRequest p m a) (fun u => owned_readGroupRequest ..) fun _ => rfl
  | readPanel x p m a => cases h; exact gate (readPanel p m a) (fun u => owned_readPanel ..) fun _ => rfl
  | setEventMask x p m a => cases h; exact gate (setEventMask x m a) (fun u => owned_setEventMask ..) fun _ => rfl
  | learnOpenEnd x p m a =>
    cases h
    refine gate (if m = 0 then learnRequest x p a .openEnd .openEnd .closedKnown else refuse .badArgument)
      (fun u => ?_) fun _ => rfl
    split
    · exact owned_learnRequest ..
    · exact .refuse ..
  | learnReference x p a =>
    cases h
    exact gate (learnRequest x p a .reference .refOpening .endsKnown)
      (fun u => owned_learnRequest ..) fun _ => rfl
  | forget x p a => cases h; exact gate (forgetRequest x p a) (fun u => owned_forgetRequest ..) fun _ => rfl
  | setParameter x p m a =>
    cases h
    exact gate (setParameterRequest x p m a)
      (fun u => owned_setParameterRequest ..) fun _ => rfl
  | readParameter x p m a =>
    cases h
    exact gate (readParameterRequest p m a)
      (fun u => owned_readParameterRequest ..) fun _ => rfl
  | readProfile x p m a =>
    cases h
    exact gate (readProfileRequest p m a)
      (fun u => owned_readProfileRequest ..) fun _ => rfl
  | zoneBegin x p m a =>
    cases h
    exact gate (zoneRequest x p (decide (m ≠ 0) || decide (a ≠ 0)) (zoneBegin x))
      (fun u => owned_zoneRequest x u _ _ (owned_zoneBegin x u)) fun _ => rfl
  | zonePutStart x p m a =>
    cases h
    exact gate (zoneRequest x p (decide (m ≠ 0)) (zonePutStart x a.toNat))
      (fun u => owned_zoneRequest x u _ _ (owned_zonePutStart x u _)) fun _ => rfl
  | zonePutField x p m a =>
    cases h
    exact gate (zoneRequest x p (decide (4 ≤ m.toNat)) (zonePutField x m.toNat a))
      (fun u => owned_zoneRequest x u _ _ (owned_zonePutField x u _ _)) fun _ => rfl
  | zoneCommit x p m a =>
    cases h
    exact gate (zoneRequest x p (decide (m ≠ 0) || decide (a ≠ 0)) (zoneCommit x))
      (fun u => owned_zoneRequest x u _ _ (owned_zoneCommit x u)) fun _ => rfl
  | zoneAbandon x p m a =>
    cases h
    exact gate (zoneRequest x p (decide (m ≠ 0) || decide (a ≠ 0)) (zoneAbandon x))
      (fun u => owned_zoneRequest x u _ _ (owned_zoneAbandon x u)) fun _ => rfl
  | store x p m a => cases h; exact gate (storeRequest x p m a) (fun u => owned_storeRequest ..) fun _ => rfl
  | calLock x p m a => cases h; exact gate (calLockRequest x p m a) (fun u => owned_calLockRequest ..) fun _ => rfl
  | calErase x p m a => cases h; exact gate (calEraseRequest x p m a) (fun u => owned_calEraseRequest ..) fun _ => rfl
  | _ => cases h

theorem stays_received (x : Client) (s : State) : Stays s (received x s) :=
  (stays_updLink x (f := fun l => { l with sent := s.nextReply x }) id).trans
    (stays_updLink x (f := fun l => { l with lastFrame := s.clock.now, lapsed := false }) id)

theorem stays_setReply (x : Client) (r : Result) (d : Word) (s : State) : Stays s (setReply x r d s) :=
  stays_updLink x (f := fun l => { l with reply := ⟨some (s.statusByte x), r, d⟩ }) id

/-- What a served request keeps. -/
theorem stays_serve {x : Client} {body : State → Answer} {s : State}
    (hb : Owned x (received x s) (body (received x s))) :
    ∃ t, serve x body s = .next t ∧ Stays s t ∧ t.agenda = [] :=
  ⟨_, rfl, (((stays_received x s).trans hb.serves.toStays).acts (Acts.refl _).settle).trans (stays_setReply ..),
    settle_agenda _⟩

theorem stays_finish {s u : State} (h : Stays s u) : ∃ t, finish u = .next t ∧ Stays s t ∧ t.agenda = [] :=
  ⟨_, rfl, h.acts (Acts.refl _).settle, settle_agenda _⟩

/-- What every command but RESET_N keeps. -/
theorem exec_stays (i : Instr) (s : State) (hi : ∀ b, i ≠ .resetN b) :
    ∃ t, exec i s = .next t ∧ Stays s t ∧ (s.agenda = [] → t.agenda = []) := by
  suffices h : (∃ t, exec i s = .next t ∧ Stays s t ∧ t.agenda = []) ∨ ∃ x, i = .frameError x by
    rcases h with ⟨t, he, hs, ha⟩ | ⟨x, rfl⟩
    · exact ⟨t, he, hs, fun _ => ha⟩
    · exact ⟨_, rfl, (stays_updLink x (f := fun l => { l with sent := s.nextReply x }) id).trans
        (stays_setReply ..), id⟩
  have act {u : State} (hu : Acts s u) : ∃ t, finish u = .next t ∧ Stays s t ∧ t.agenda = [] := stays_finish hu.stays
  have refl := Acts.refl s
  match hf : requestFields i with
  | some (x, code, p, m, a) =>
    obtain ⟨body, he, ho, -⟩ := exec_request hf
    exact .inl (he s ▸ stays_serve (ho _))
  | none =>
    cases i with
    | resetN b => exact absurd rfl (hi b)
    | frameError x => exact .inr ⟨x, rfl⟩
    | startUpLoad =>
      refine .inl (stays_finish ?_)
      split
      · exact .refl s
      · exact stays_loadAll
    | hallAcceptance c pair =>
      refine .inl (act ?_)
      split
      · exact refl.accept c pair
      · exact refl
    | supplySample r =>
      refine .inl (stays_finish ?_)
      refine Stays.trans (t := { s with sup := s.sup.sample (min r 2047) }) ?_ stays_evaluateSupply
      exact .of_records rfl rfl rfl rfl fun h => h
    | ldeTake => exact .inl (act refl.takeNext)
    | ldeCompletion =>
      refine .inl (act ?_)
      split
      · exact refl.completeTake _
      · exact refl
    | stall c =>
      refine .inl (act ?_)
      split
      · exact refl.stallExpired c
      · exact refl
    | brakeExpiry c =>
      refine .inl (act ?_)
      split
      · exact refl.brakeExpired c
      · exact refl
    | spacingTimerRunOut =>
      refine .inl (act ?_)
      split
      · exact refl.spacingRunsOut
      · exact refl
    | refreshDeadlineExpiry c =>
      refine .inl (act ?_)
      split
      · exact refl.endOrder ..
      · exact refl
    | waitDeadlineExpiry c =>
      refine .inl (act ?_)
      split
      · exact refl.waitExpired c
      · exact refl
    | overrideWindowExpiry c =>
      refine .inl (act ?_)
      split
      · exact refl.clearOverride c
      · exact refl
    | lapseTimerExpiry x =>
      refine .inl (stays_finish ?_)
      split
      · exact stays_lapse x
      · exact .refl s
    | storeCompletion valid =>
      refine .inl (stays_finish ?_)
      split
      · next b hb =>
        split
        · have hjob : Ranged s → b.job.valid := fun h => h.1.2.2.2.2 b hb
          split <;> rename_i hj <;> rw [hj] at hjob
          · exact stays_channelWritten hjob valid
          · exact stays_globalWritten hjob valid
          · exact stays_globalWritten hjob valid
          · exact .refl s
        · exact .refl s
      · exact .refl s
    | calEraseCompletion =>
      refine .inl (stays_finish ?_)
      split
      · split
        · exact stays_imageErased
        · exact .refl s
      · exact .refl s
    | sectorSwitch =>
      refine .inl (stays_finish ?_)
      split
      · exact .of_records rfl rfl rfl rfl fun h => h
      · exact .refl s
    | stselChange level => exact .inl (stays_finish (.of_records rfl rfl rfl rfl fun h => h))
    | _ => cases hf

/-! ## RESET_N (R16, R28, R55, R181, R189) -/

theorem ch_reset (c : Chan) : State.reset.ch c = resetChannel := by simp [State.ch, State.reset]
theorem link_reset (x : Client) : State.reset.link x = resetLink := by simp [State.link, State.reset]

theorem bounded_resetChannel : resetChannel.hif.Bounded ∧ resetChannel.ctx.Bounded ∧ resetChannel.cal.valid :=
  ⟨by unfold Hif.Bounded; decide, by unfold LoadContext.Bounded; decide, valid_defaultCal⟩

theorem stagingBounded_empty : emptyStaging.records.length ≤ 6 ∧ startsInRange emptyStaging.records :=
  ⟨Nat.zero_le _, nofun⟩

/-- R189: the image that a reset leaves holds records within their ranges. -/
theorem valid_imageAfterReset {v : Nvc} (hc : ∀ c : Chan, v.channels[c].contents.valid) (hg : v.glob.contents.valid)
    (now fresh : Nat) : (∀ c : Chan, (imageAfterReset now fresh v).channels[c].contents.valid) ∧
      (imageAfterReset now fresh v).glob.contents.valid ∧ (imageAfterReset now fresh v).busy = none := by
  unfold imageAfterReset
  split
  · next hb => exact ⟨hc, hg, hb⟩
  · split
    · next c _ _ =>
      refine ⟨fun d => ?_, hg, rfl⟩
      change ((v.channels.set c _)[d]).contents.valid
      rw [getElem_set_chan]
      split
      · exact hc c
      · exact hc d
    · exact ⟨hc, hg, rfl⟩
    · exact ⟨hc, hg, rfl⟩
    · have cut {α : Type} {P : α → Prop} (n i k : Nat) (b : Bool) {r : Stored α} {d : α} (hr : P r.contents)
          (hd : P d) : P (cutErased n i k b r d).contents := by
        unfold cutErased
        split
        · exact hd
        · split
          · exact hd
          · exact hr
      refine ⟨fun c => ?_, cut _ _ _ _ hg valid_defaultGlobal, rfl⟩
      simp only [cutErase, Fin.getElem_fin, Vector.getElem_ofFn]
      exact cut _ _ _ _ (hc c) valid_defaultCal

theorem sound_resetDevice (b : Bool) (s : State) : Sound s (resetDevice b s) where
  link y _ := by
    rw [show (resetDevice b s).link y = resetLink from link_reset y]
    unfold Link.Bounded; decide
  hall c _ := by
    rw [show (resetDevice b s).ch c = resetChannel from ch_reset c]
    exact bounded_resetChannel.1
  load c _ := by
    rw [show (resetDevice b s).ch c = resetChannel from ch_reset c]
    exact bounded_resetChannel.2.1
  records := fun ⟨⟨_, h2, _, h4, _⟩, _⟩ => by
    obtain ⟨k1, k2, k3⟩ := valid_imageAfterReset h2 h4 s.clock.now s.fresh
    refine ⟨⟨fun c => ?_, k1, valid_defaultGlobal, k2, fun j hj => ?_⟩, stagingBounded_empty⟩
    · rw [show (resetDevice b s).ch c = resetChannel from ch_reset c]
      exact bounded_resetChannel.2.2
    · cases k3.symm.trans hj

/-! ## A step (log entry 1) -/

/-- R3: a sample of the pair filter is nobody's bound. -/
theorem filterSample_eq (pair : Pair) (h : Hif) :
    (filterSample pair h).1 = { h with
      candidate := (filterSample pair h).1.candidate, count := (filterSample pair h).1.count } := by
  by_cases h0 : h.phase = some pair
  · simp [filterSample, h0]
  · by_cases h4 : 4 ≤ (if h.candidate = some pair then h.count + 1 else 1) <;> simp [filterSample, h0, h4]

/-- R3: a Hall sample takes the pair of one channel. -/
theorem acts_sampleHall {s : State} (r : State × List Instr) (h : Acts s r.1) (c : Chan) : Acts s (sampleHall r c).1 := by
  unfold sampleHall
  split
  · have hf : Acts s (updHif c (fun _ => (filterSample r.1.pins.hall[c] (r.1.ch c).hif).1) r.1) :=
      h.updHif c fun hb => by rw [filterSample_eq]; exact hb
    exact hf
  · exact h

theorem acts_sampleHalls (s : State) : Acts s (sampleHalls s).1 := by
  have h (l : List Chan) (r : State × List Instr) (hr : Acts s r.1) : Acts s (l.foldl sampleHall r).1 := by
    induction l generalizing r with
    | nil => exact hr
    | cons c l ih => exact ih _ (acts_sampleHall r hr c)
  exact h allChans (s, []) (.refl s)

theorem sound_enqueue (l : List Instr) (s : State) : Sound s (enqueue l s) :=
  ⟨fun _ => id, fun _ => id, fun _ => id, fun h => h⟩

theorem sound_tick (s : State) : Sound s (tick s) := by
  unfold tick
  split
  · have helapse : Sound s (elapse 1 s) := ⟨fun _ => id, fun _ => id, fun _ => id, fun h => h⟩
    exact (helapse.trans (acts_sampleHalls _).sound).trans (sound_enqueue ..)
  · exact sound_enqueue ..

/-- What every step keeps of the bounds. -/
theorem step_sound {s t : State} (h : step s = .next t) : Sound s t := by
  unfold step at h
  split at h
  · cases h; exact sound_tick s
  · next i rest _ =>
    have htail : Sound s { s with pending := rest } := ⟨fun _ => id, fun _ => id, fun _ => id, fun h => h⟩
    refine htail.trans ?_
    by_cases hi : ∃ b, i = .resetN b
    · obtain ⟨b, rfl⟩ := hi
      cases h
      exact sound_resetDevice ..
    · obtain ⟨u, hu, hs, -⟩ := exec_stays i { s with pending := rest } fun b hb => hi ⟨b, hb⟩
      cases h.symm.trans hu
      exact hs.toSound

/-! ## The statements -/

/-- Settles O5: `Sound`, which every step is, keeps the bounds of each link. -/
theorem linkBoundsKept : Obligations.LinkBoundsKept := fun _ _ hs h y => (step_sound h).link y (hs y)

/-- Settles O6: `Sound`, which every step is, keeps the Hall bounds of each channel. -/
theorem hallBoundsKept : Obligations.HallBoundsKept := fun _ _ hs h c => (step_sound h).hall c (hs c)

/-- Settles O7: `Sound`, which every step is, keeps the bounds of each load context. -/
theorem loadBoundsKept : Obligations.LoadBoundsKept := fun _ _ hs h c => (step_sound h).load c (hs c)

/-- Settles O8: `Sound`, which every step is, keeps the ranges of the records and of the staging buffer. -/
theorem recordsStayValid : Obligations.RecordsStayValid := fun _ _ hr hst h => (step_sound h).records ⟨hr, hst⟩

/-- Settles O2: every command but RESET_N `Stays`, and RESET_N keeps the waiting commands. -/
theorem commandsAnswerAndKeepQueueAndPins : Obligations.CommandsAnswerAndKeepQueueAndPins := by
  intro i s
  by_cases hi : ∃ b, i = .resetN b
  · obtain ⟨b, rfl⟩ := hi
    exact ⟨_, rfl, rfl, fun h => absurd rfl (h b)⟩
  · obtain ⟨t, ht, hs, -⟩ := exec_stays i s fun b hb => hi ⟨b, hb⟩
    exact ⟨t, ht, hs.pending, fun _ => by rw [hs.pins]; exact ⟨rfl, rfl, rfl⟩⟩

/-- Settles O3: a command ends in `settle`, in the reset state or, a bad frame, with the agenda as it was. -/
theorem actionsAreComplete : Obligations.ActionsAreComplete := by
  intro i s t ha h
  by_cases hi : ∃ b, i = .resetN b
  · obtain ⟨b, rfl⟩ := hi
    cases h
    rfl
  · obtain ⟨u, hu, -, hempty⟩ := exec_stays i s fun b hb => hi ⟨b, hb⟩
    cases h.symm.trans hu
    exact hempty ha

/-- Settles O16: until READY a routed request is refused by CLI, and a refusal changes nothing. -/
theorem notReadyRefusesRequests : Obligations.NotReadyRefusesRequests := by
  intro i s x code p m a hr ha hwf hf hc h0 h1 h2 h4
  obtain ⟨body, he, -, hg⟩ := exec_request hf
  rw [he s]
  exact serve_of_answer ha (hg ⟨hwf, hc, h0, h1, h2, h4⟩ (received x s) hr)

/-- Settles O17: an owner that answers neither DONE nor ACCEPTED kept the state, so that nothing is left to be done
and the frame and the reply are the whole change. -/
theorem refusedRequestsChangeNothing : Obligations.RefusedRequestsChangeNothing := by
  intro i s t x code p m a ha hf h hd hacc
  obtain ⟨body, he, ho, -⟩ := exec_request hf
  rw [he s, serve_eq] at h
  cases h
  rw [reply_setReply] at hd hacc
  have hkept := (((ho (received x s)).kept.resolve_left hd).resolve_left hacc)
  rw [hkept, settle_of_nil (s := received x s) ha]
  exact ⟨rfl, fun y hy => by rw [link_setReply_ne (Ne.symm hy), link_received_ne (Ne.symm hy)]⟩

/-- Settles O1: a step takes the command at the front. -/
theorem stepRunsTheFrontCommand : Obligations.StepRunsTheFrontCommand := fun _ _ _ => rfl

/-- Settles O10: the reset channel, link, records and table row are checked once each, for every channel. -/
theorem resetMeetsTheInvariants : Obligations.ResetMeetsTheInvariants := by
  refine ⟨fun x => ?link, fun c => ?hall, fun c => ?load, ?records, stagingBounded_empty, ?table, rfl, rfl, ?idle⟩
  case link => rw [link_reset]; decide
  case hall => rw [ch_reset]; exact bounded_resetChannel.1
  case load => rw [ch_reset]; exact bounded_resetChannel.2.1
  case records =>
    refine ⟨fun c => ?_, fun c => ?_, valid_defaultGlobal, valid_defaultGlobal, nofun⟩
    · rw [ch_reset]; exact bounded_resetChannel.2.2
    · simpa [State.reset, blankImage, blankRecord] using valid_defaultCal
  case table =>
    refine ⟨fun c => ?_, .nil, .nil, by decide, fun _ => by decide, rfl⟩
    rw [ch_reset]
    unfold Channel.inTable
    simp [resetChannel, resetMoc, State.reset]
  case idle => intro c; rw [ch_reset]; decide

/-- R3: the filter while the fourth equal sample is still to come. -/
theorem filterSample_candidate {h : Hif} {pair : Pair} (hp : h.phase ≠ some pair) (hc : h.candidate = some pair) :
    filterSample pair h = if 3 ≤ h.count then ({ h with candidate := none, count := 0 }, some pair)
      else ({ h with candidate := some pair, count := h.count + 1 }, none) := by
  simp [filterSample, hp, hc]

/-- Settles O22: a new pair becomes the candidate at count 1, and each further equal sample raises the count. -/
theorem fourthEqualSampleAccepts : Obligations.FourthEqualSampleAccepts := by
  intro h pair hp hc
  have first : filterSample pair h = ({ h with candidate := some pair, count := 1 }, none) := by
    simp [filterSample, hp, hc]
  have later (n : Nat) (hn : n < 3) : filterSample pair { h with candidate := some pair, count := n } =
      ({ h with candidate := some pair, count := n + 1 }, none) := by
    rw [filterSample_candidate (h := { h with candidate := some pair, count := n }) hp rfl, if_neg (by simpa using hn)]
  have fourth : filterSample pair { h with candidate := some pair, count := 3 } =
      ({ h with candidate := none, count := 0 }, some pair) := by
    rw [filterSample_candidate (h := { h with candidate := some pair, count := 3 }) hp rfl, if_pos (Nat.le_refl 3)]
  rw [first, later 1 (by decide), later 2 (by decide), fourth]
  exact ⟨rfl, rfl, rfl, rfl, fun q hq => by simp [filterSample, hq]⟩

end Sys2Proof.Machine
end

section
/-! Requests as frames (R169, R175): what a sealed request frame is decoded as. -/

namespace Sys2Proof

/-- R169: bits 28 to 31 are the high half of byte 2, bits 24 to 27 its low half, bits 8 to 23 bytes 3 and 4. -/
theorem frame_fields (f : BitVec 40) :
    f.extractLsb' 28 4 = (frameByte 2 f).extractLsb' 4 4 ∧ f.extractLsb' 24 4 = (frameByte 2 f).extractLsb' 0 4 ∧
    f.extractLsb' 8 16 = frameByte 3 f ++ frameByte 4 f := by
  refine ⟨?_, ?_, (BitVec.extractLsb'_append_extractLsb'_eq_extractLsb' (x := f) (start₁ := 8) (len₁ := 8) rfl).symm⟩ <;>
    ext i hi
  · simp [frameByte, show 4 + i < 8 by omega, ← Nat.add_assoc]
  · simp [frameByte, show i < 8 by omega]

/-- R171, R175: the frame of these fields passes the sum check and is the request that they spell. -/
theorem decodeFrame_sealFrame (x : Client) (code : Byte) (p m : BitVec 4) (a : Word) :
    decodeFrame x (sealFrame code (p ++ m) (a.extractLsb' 8 8) (a.extractLsb' 0 8)) = requestOf x code p m a := by
  obtain ⟨hp, hm, ha⟩ := frame_fields (sealFrame code (p ++ m) (a.extractLsb' 8 8) (a.extractLsb' 0 8))
  have hword : a.extractLsb' 8 8 ++ a.extractLsb' 0 8 = a := BitVec.extractLsb'_append_extractLsb' (w := 8) (len := 8)
  rw [decodeFrame, if_pos (frameSumOk_sealFrame ..), hp, hm, ha, sealFrame, frameByte_one_frameOfBytes,
    frameByte_two_frameOfBytes, frameByte_three_frameOfBytes, frameByte_four_frameOfBytes, hword,
    BitVec.extractLsb'_append_eq_left, BitVec.extractLsb'_append_eq_right]

/-- R175: a code that the table does not assign spells no request of the table. -/
theorem requestOf_of_unassigned {x : Client} {code : Byte} (h : assignedCode code = false) (p m : BitVec 4) (a : Word) :
    requestOf x code p m a = .undefinedRequestCode x code := by
  unfold requestOf
  split
  case h_30 => rfl
  all_goals next hcode => simp [assignedCode, hcode] at h

/-- R175: the fields of a well-formed request spell it again. -/
theorem requestOf_requestFields {i : Instr} {x : Client} {code : Byte} {p m : BitVec 4} {a : Word}
    (hi : i.wellFormed = true) (hf : requestFields i = some (x, code, p, m, a)) : requestOf x code p m a = i := by
  cases i <;> simp only [requestFields, Option.some.injEq, Prod.mk.injEq, reduceCtorEq] at hf <;>
    obtain ⟨rfl, rfl, rfl, rfl, rfl⟩ := hf
  case undefinedRequestCode y code => exact requestOf_of_unassigned (by simpa [Instr.wellFormed] using hi) ..
  case learnOpenEnd y p m a =>
    obtain ⟨h1, h2⟩ : m ≠ 1 ∧ m ≠ 2 := by simpa [Instr.wellFormed] using hi
    change (if m = 1 then _ else if m = 2 then _ else _) = _
    rw [if_neg h1, if_neg h2]
  all_goals rfl
end Sys2Proof

namespace Sys2Proof.Machine

/-- Settles O13: a request's frame is sealed from its fields, and its fields spell it. -/
theorem decodeOfEncode : Obligations.DecodeOfEncode := by
  intro i x f hi hf
  unfold encodeFrame at hf
  split at hf
  · next y code p m a hfields =>
    obtain ⟨rfl, rfl⟩ := by simpa using hf
    rw [decodeFrame_sealFrame, requestOf_requestFields hi hfields]
  · cases hf

end Sys2Proof.Machine
end

section
/-! Posting (R179 to R181): who selects a record, what its queue is then, and that a record stays while few follow. -/

namespace Sys2Proof.Machine

/-! ## Joining a queue (R181) -/

theorem joinQueue_of_room {e : Event} {l : Link} (h : l.queue.length < 16) :
    joinQueue e l = { l with queue := l.queue ++ [e] } := if_neg (not_le.mpr h)

theorem joinQueue_of_full {e : Event} {l : Link} (h : 16 ≤ l.queue.length) :
    joinQueue e l = { l with queue := l.queue.tail ++ [e], lost := min 255 (l.lost + 1) } := if_pos h

/-! ## Who selects a record (R180) -/

/-- R180: "A CLIENT_LAPSE event is not delivered to the client it names." -/
def OwnLapse (y : Client) (k : EventKind) (d : Word) : Prop := k = .clientLapse ∧ d = natWord y.val

section
variable {s : State} {y : Client} {k : EventKind} {c : Chan} {w d : Word}

theorem populated_and_selects : s.populated c = true ∧ s.selects ⟨k, some c, w, d, s.clock.ms⟩ y = true ↔
    Hears s y k c ∧ ¬ OwnLapse y k d := by
  simp only [State.selects, Hears, OwnLapse, Bool.and_eq_true, Bool.not_eq_true', Bool.and_eq_false_iff,
    decide_eq_false_iff_not]
  tauto

theorem selects_none : s.selects ⟨k, none, w, d, s.clock.ms⟩ y = true ↔
    (s.link y).mask.getLsbD (eventCode k) = true ∧ ¬ OwnLapse y k d := by
  simp only [State.selects, OwnLapse, Bool.and_eq_true, Bool.not_eq_true', Bool.and_eq_false_iff,
    decide_eq_false_iff_not]
  tauto

theorem link_post_of_hears (hh : Hears s y k c) (hk : ¬ OwnLapse y k d) :
    (post k (some c) w d s).link y = joinQueue ⟨k, some c, w, d, s.clock.ms⟩ (s.link y) := by
  rw [link_post, if_pos (populated_and_selects.mpr ⟨hh, hk⟩)]

theorem link_post_of_not_hears (h : ¬ Hears s y k c ∨ OwnLapse y k d) :
    (post k (some c) w d s).link y = s.link y := by
  rw [link_post, if_neg fun hs => by
    obtain ⟨hh, hk⟩ := populated_and_selects.mp hs
    exact h.elim (· hh) hk]

theorem link_post_none_of_selects (hm : (s.link y).mask.getLsbD (eventCode k) = true) (hk : ¬ OwnLapse y k d) :
    (post k none w d s).link y = joinQueue ⟨k, none, w, d, s.clock.ms⟩ (s.link y) := by
  rw [link_post_none, if_pos (selects_none.mpr ⟨hm, hk⟩)]

theorem link_post_none_of_not_selects (h : (s.link y).mask.getLsbD (eventCode k) = false ∨ OwnLapse y k d) :
    (post k none w d s).link y = s.link y := by
  rw [link_post_none, if_neg fun hs => by
    obtain ⟨hm, hk⟩ := selects_none.mp hs
    rcases h with h | h
    · rw [h] at hm; cases hm
    · exact hk h]

theorem not_ownLapse (h : k ≠ .clientLapse) : ¬ OwnLapse y k d := fun hk => h hk.1

end

/-- Settles O20: each link reads as `joinQueue` says where its client selects the record, and stands elsewhere. -/
theorem postDeliversToSelectors : Obligations.PostDeliversToSelectors := by
  intro k c w d s y
  refine ⟨onlyLinks_post .., link_post_of_not_hears, fun hh hk hroom => ?_, fun hh hk hfull => ?_, onlyLinks_post ..,
    link_post_none_of_not_selects, fun hm hk => ⟨fun hroom => ?_, fun hfull => ?_⟩⟩
  · rw [link_post_of_hears hh (not_ownLapse hk), joinQueue_of_room hroom]
  · rw [link_post_of_hears hh (not_ownLapse hk), joinQueue_of_full hfull]
  · rw [link_post_none_of_selects hm hk, joinQueue_of_room hroom]
  · rw [link_post_none_of_selects hm hk, joinQueue_of_full hfull]

/-! ## A record stays while few follow it -/

/-- The record is in the queue with at most `n` records behind it. -/
def Recent (n : Nat) (e : Event) (q : List Event) : Prop := ∃ older newer, q = older ++ e :: newer ∧ newer.length ≤ n

namespace Recent
variable {n m : Nat} {e e' : Event} {l : Link}

theorem mem {q : List Event} (h : Recent n e q) : e ∈ q := by
  obtain ⟨older, newer, rfl, -⟩ := h
  simp

theorem mono {q : List Event} (h : Recent n e q) (hn : n ≤ m) : Recent m e q := by
  obtain ⟨older, newer, hq, hl⟩ := h
  exact ⟨older, newer, hq, hl.trans hn⟩

theorem joinQueue_self (e : Event) (l : Link) : Recent n e (joinQueue e l).queue := by
  unfold joinQueue
  split
  · exact ⟨_, [], rfl, Nat.zero_le n⟩
  · exact ⟨_, [], rfl, Nat.zero_le n⟩

theorem joinQueue (h : Recent n e l.queue) (hn : n < 15) : Recent (n + 1) e (joinQueue e' l).queue := by
  obtain ⟨older, newer, hq, hl⟩ := h
  unfold Machine.joinQueue
  split
  · next hfull =>
    match older, hq with
    | [], hq =>
      rw [hq] at hfull
      simp at hfull
      omega
    | o :: older, hq => exact ⟨older, newer ++ [e'], by simp [hq], by simp; omega⟩
  · exact ⟨older, newer ++ [e'], by simp [hq], by simp; omega⟩

/-- A further record, if it is for this client at all, pushes the record back by one. -/
theorem post {s : State} {y : Client} (h : Recent n e (s.link y).queue) (hn : n < 15) (k : EventKind) (c : Option Chan)
    (w d : Word) : Recent (n + 1) e ((post k c w d s).link y).queue := by
  cases c with
  | some c =>
    rw [link_post]
    split
    · exact h.joinQueue hn
    · exact h.mono n.le_succ
  | none =>
    rw [link_post_none]
    split
    · exact h.joinQueue hn
    · exact h.mono n.le_succ

theorem of_hears {s : State} {y : Client} {k : EventKind} {c : Chan} {w d : Word} (hh : Hears s y k c)
    (hk : k ≠ .clientLapse) : Recent n ⟨k, some c, w, d, s.clock.ms⟩ ((Machine.post k (some c) w d s).link y).queue := by
  rw [link_post_of_hears hh (not_ownLapse hk)]
  exact joinQueue_self ..

theorem of_selects {s : State} {y : Client} {k : EventKind} {w d : Word}
    (hm : (s.link y).mask.getLsbD (eventCode k) = true) (hk : ¬ OwnLapse y k d) :
    Recent n ⟨k, none, w, d, s.clock.ms⟩ ((Machine.post k none w d s).link y).queue := by
  rw [link_post_none_of_selects hm hk]
  exact joinQueue_self ..

end Recent

/-- What a client hears goes by the panel mask, the populated flag and the event mask. -/
theorem Hears.congr {s t : State} {y : Client} {k : EventKind} {c : Chan} (h : Hears s y k c)
    (hp : t.populated c = s.populated c) (hg : t.glob = s.glob) (hm : (t.link y).mask = (s.link y).mask) :
    Hears t y k c := by
  obtain ⟨h1, h2, h3⟩ := h
  exact ⟨hp ▸ h1, by rw [State.mayAct, State.rights, hg]; exact h2, hm ▸ h3⟩

@[simp] theorem mask_post (k : EventKind) (c : Option Chan) (w d : Word) (s : State) (y : Client) :
    ((post k c w d s).link y).mask = (s.link y).mask := by
  have hj (e : Event) (l : Link) : (joinQueue e l).mask = l.mask := by unfold joinQueue; split <;> rfl
  cases c with
  | some c => rw [link_post]; split <;> simp [hj]
  | none => rw [link_post_none]; split <;> simp [hj]

/-- An event of the whole device that the client selects is held right after it was posted. -/
theorem holds_post_none {s : State} {y : Client} {k : EventKind} {w d : Word}
    (hm : (s.link y).mask.getLsbD (eventCode k) = true) (hk : ¬ OwnLapse y k d) :
    Holds (post k none w d s) y k none w d := by
  unfold Holds
  rw [post_clock]
  exact (Recent.of_selects (n := 0) hm hk).mem

theorem holds_post {s : State} {y : Client} {k : EventKind} {c : Chan} {w d : Word} (hh : Hears s y k c)
    (hk : k ≠ .clientLapse) : Holds (post k (some c) w d s) y k (some c) w d := by
  unfold Holds
  rw [post_clock]
  exact (Recent.of_hears (n := 0) hh hk).mem

end Sys2Proof.Machine
end

section
/-! The event requests of CLI (R182): what each answers, and the words of a record (R179). -/

namespace Sys2Proof.Machine

section
variable {x : Client} {s : State}

/-- A request whose owner leaves nothing to be done. -/
theorem serve_of_settled {body : State → Answer} {r : Result} {d : Word} {t : State}
    (h : body (received x s) = ⟨r, d, t⟩) (ht : t.agenda = []) : serve x body s = .next (setReply x r d t) := by
  rw [serve_eq, h, settle_of_nil ht]

/-- From READY on, a routed request whose owner answers `r` and `d` and keeps the state. -/
theorem serve_routed_of_answer {body : State → Answer} {r : Result} {d : Word} (ha : s.agenda = []) (hr : s.ready = true)
    (h : body (received x s) = ⟨r, d, received x s⟩) :
    serve x (routed body) s = .next (setReply x r d (received x s)) :=
  serve_of_answer ha (by rw [routed_of_ready (by rw [received_ready, hr]), h])

theorem serve_routed_of_settled {body : State → Answer} {r : Result} {d : Word} {t : State} (hr : s.ready = true)
    (h : body (received x s) = ⟨r, d, t⟩) (ht : t.agenda = []) :
    serve x (routed body) s = .next (setReply x r d t) :=
  serve_of_settled (by rw [routed_of_ready (by rw [received_ready, hr]), h]) ht

/-! ## READ EVENT, POP EVENT and SET EVENT MASK by their fields -/

theorem readEvent_malformed {m : BitVec 4} {a : Word} (h : 5 ≤ m.toNat ∨ a ≠ 0) :
    readEvent x m a s = refuse .badArgument s := if_pos h

theorem readEvent_lost : readEvent x 4 0 s =
    ⟨.done, natWord (s.link x).lost, updLink x (fun l => { l with lost := 0 }) s⟩ := rfl

/-- R182: modifiers 0 to 3 read a word of the head. -/
theorem readEvent_of_cons {m : BitVec 4} (hm : m.toNat ≤ 3) {e : Event} {rest : List Event}
    (h : (s.link x).queue = e :: rest) : readEvent x m 0 s = ⟨.done, eventWord e m.toNat, s⟩ := by
  have h4 : m ≠ 4 := fun h => absurd hm (by rw [h]; decide)
  rw [readEvent, if_neg (by simp; omega), if_neg h4, h]

theorem readEvent_of_nil {m : BitVec 4} (hm : m.toNat ≤ 3) (h : (s.link x).queue = []) :
    readEvent x m 0 s = refuse .empty s := by
  have h4 : m ≠ 4 := fun h => absurd hm (by rw [h]; decide)
  rw [readEvent, if_neg (by simp; omega), if_neg h4, h]

theorem popEvent_malformed {m : BitVec 4} {a : Word} (h : m ≠ 0 ∨ a ≠ 0) :
    popEvent x m a s = refuse .badArgument s := if_pos h

theorem popEvent_of_cons {e : Event} {rest : List Event} (h : (s.link x).queue = e :: rest) :
    popEvent x 0 0 s = ⟨.done, natWord rest.length, updLink x (fun l => { l with queue := rest }) s⟩ := by
  rw [popEvent, if_neg (by simp), h]

theorem popEvent_of_nil (h : (s.link x).queue = []) : popEvent x 0 0 s = refuse .empty s := by
  rw [popEvent, if_neg (by simp), h]

theorem setEventMask_malformed {m : BitVec 4} (h : m ≠ 0) (a : Word) :
    setEventMask x m a s = refuse .badArgument s := if_pos h

end

/-! ## The words of a record (R179) -/

/-- A field of a word that is written as a number. -/
theorem extract_natWord {start len : Nat} (h : start + len ≤ 16) (n : Nat) :
    (natWord n).extractLsb' start len = BitVec.ofNat len (n / 2 ^ start) := by
  apply BitVec.eq_of_toNat_eq
  have hpow : (2 : Nat) ^ 16 = 2 ^ start * 2 ^ (16 - start) := by rw [← Nat.pow_add]; congr 1; omega
  have hdvd : (2 : Nat) ^ len ∣ 2 ^ (16 - start) := Nat.pow_dvd_pow 2 (by omega)
  rw [natWord, BitVec.extractLsb'_toNat, BitVec.toNat_ofNat, BitVec.toNat_ofNat, Nat.shiftRight_eq_div_pow, hpow,
    Nat.mod_mul_right_div_self, Nat.mod_mod_of_dvd _ hdvd]

theorem extract_bytesWord_high (hi lo : Nat) : (bytesWord hi lo).extractLsb' 8 8 = BitVec.ofNat 8 hi :=
  BitVec.extractLsb'_append_eq_left

theorem extract_bytesWord_nibbles (hi lo : Nat) (h : lo < 16) :
    (bytesWord hi lo).extractLsb' 4 4 = 0 ∧ (bytesWord hi lo).extractLsb' 0 4 = BitVec.ofNat 4 lo := by
  have hlow (start : Nat) (hs : start + 4 ≤ 8) :
      (bytesWord hi lo).extractLsb' start 4 = (BitVec.ofNat 8 lo).extractLsb' start 4 :=
    BitVec.extractLsb'_append_eq_of_add_le hs
  rw [hlow 4 (by decide), hlow 0 (by decide)]
  interval_cases lo <;> exact ⟨rfl, rfl⟩

/-- R179: word 0 has the kind's code in its high byte and the channel, or 15, in its low byte. -/
theorem eventWord_zero (e : Event) : eventWord e 0 = bytesWord (eventCode e.kind) ((e.chan.map Fin.val).getD 15) := rfl

theorem eventChan_lt (e : Event) : (e.chan.map Fin.val).getD 15 < 16 := by
  cases e.chan with
  | none => decide
  | some c => exact Nat.lt_trans c.isLt (by decide)

/-- Settles O21: each request is its own rule's answer to the received state, in which the queue stands. -/
theorem eventRequestsAct : Obligations.EventRequestsAct := by
  intro x p m a s ha
  have hq : ((received x s).link x).queue = (s.link x).queue := queue_received ..
  have hl : ((received x s).link x).lost = (s.link x).lost := by simp [received, noteValidFrame, shiftReply]
  refine ⟨⟨fun e rest he => ?head, fun he hm => ?none, fun h => ?badRead, fun he => ?popNone, fun h => ?badPop,
    fun hr h => ?badMask⟩, ?lost, fun e rest he => ?pop, fun hr => ?mask⟩
  case head =>
    have word {n : BitVec 4} (hn : n.toNat ≤ 3) : exec (.readEvent x p n 0) s =
        .next (setReply x .done (eventWord e n.toNat) (received x s)) :=
      serve_of_answer ha (readEvent_of_cons hn (hq.trans he))
    obtain ⟨hzero, hchan⟩ := extract_bytesWord_nibbles (eventCode e.kind) _ (eventChan_lt e)
    refine ⟨⟨_, ?_, hzero, fun c hc => ?_, fun hc => ?_, word (n := 0) (by decide)⟩, word (n := 1) (by decide),
      word (n := 2) (by decide), word (n := 3) (by decide)⟩
    · rw [extract_bytesWord_high]
      cases e.kind <;> rfl
    · rw [hchan, hc]
      rfl
    · rw [hchan, hc]
      rfl
  case none => exact serve_of_answer ha (readEvent_of_nil hm (hq.trans he))
  case badRead => exact serve_of_answer ha (readEvent_malformed h)
  case popNone => exact serve_of_answer ha (popEvent_of_nil (hq.trans he))
  case badPop => exact serve_of_answer ha (popEvent_malformed h)
  case badMask => exact serve_routed_of_answer ha hr (setEventMask_malformed h a)
  case lost => exact serve_of_settled (readEvent_lost.trans (by rw [hl])) ha
  case pop => exact serve_of_settled (popEvent_of_cons (hq.trans he)) ha
  case mask => exact serve_routed_of_settled hr (t := updLink x (fun l => { l with mask := a }) (received x s)) rfl ha

end Sys2Proof.Machine
end

section
/-! The calibration memory (chapter 11): what a reset leaves of the image (R189), STORE, CAL LOCK (R188, R190) and
their completions. -/

namespace Sys2Proof.Machine

/-! ## Stored records (R185) -/

section
variable {α : Type}

theorem condition_blankRecord (n : Nat) (a : α) : (blankRecord a).condition n = .blank := if_neg fun h => nomatch h.1

theorem condition_writtenRecord (n : Nat) (ok : Bool) (a : α) :
    (writtenRecord n ok a).condition n = if ok = true then .valid else .corrupt := if_pos ⟨rfl, rfl⟩

/-- R189: what a cut-off erase leaves of record `i`, by where it had come to. -/
theorem condition_cutErased (n i number : Nat) (b : Bool) (r : Stored α) (a : α) :
    (i < n → (cutErased n i number b r a).condition number = .blank) ∧
    (i = n → (cutErased n i number b r a).condition number = .blank ∨
      (cutErased n i number b r a).condition number = .corrupt) ∧
    (n < i → cutErased n i number b r a = r) := by
  refine ⟨fun h => ?_, fun h => ?_, fun h => ?_⟩ <;> unfold cutErased
  · rw [if_pos (.inl h), condition_blankRecord]
  · split
    · exact .inl (condition_blankRecord ..)
    · exact .inr (condition_writtenRecord ..)
  · rw [if_neg (by omega), if_neg (by omega)]

theorem storeChannelRecord_same (c : Chan) (r : Stored CalRecord) (v : Nvc) :
    (storeChannelRecord c r v).channels[c] = r := by
  change (v.channels.set c r)[c] = r
  rw [getElem_set_chan, if_pos rfl]

theorem storeChannelRecord_other {c d : Chan} (h : d ≠ c) (r : Stored CalRecord) (v : Nvc) :
    (storeChannelRecord c r v).channels[d] = v.channels[d] := by
  change (v.channels.set c r)[d] = _
  rw [getElem_set_chan, if_neg h]

end

/-! ## What a reset leaves of the image (R189) -/

section
variable {v : Nvc} {job : Busy} (now fresh : Nat) (hb : v.busy = some job)

theorem imageAfterReset_idle (h : v.busy = none) : imageAfterReset now fresh v = v := by
  unfold imageAfterReset
  rw [h]

include hb

theorem imageAfterReset_storeChannel {c : Chan} {r : CalRecord} (hj : job.job = .storeChannel c r) :
    imageAfterReset now fresh v = { cutChannel c v with busy := none } := by
  unfold imageAfterReset
  rw [hb]
  simp only [hj]

theorem imageAfterReset_global {g : GlobalRecord} (hj : job.job = .storeGlobal g ∨ job.job = .lockWrite g) :
    imageAfterReset now fresh v = { cutGlobal v with busy := none } := by
  unfold imageAfterReset
  rw [hb]
  rcases hj with hj | hj <;> simp only [hj]

theorem imageAfterReset_erase (hj : job.job = .erase) : imageAfterReset now fresh v =
    cutErase (min 8 (Config.erasedAfter (now - job.since) fresh)) (Config.cutRecordBlank fresh) v := by
  unfold imageAfterReset
  rw [hb]
  simp only [hj]

end

/-- R191: the order of an erase, the global record first and channel `c` after it in its turn. -/
theorem cutErase_channel (n : Nat) (b : Bool) (v : Nvc) (c : Chan) :
    (cutErase n b v).channels[c] = cutErased n (c.val + 1) c.val b v.channels[c] defaultCal := by
  change (Vector.ofFn fun c => cutErased n (c.val + 1) c.val b v.channels[c] defaultCal)[c] = _
  simp only [Fin.getElem_fin, Vector.getElem_ofFn]

theorem group_reset (g : Fin 4) : State.reset.group g = none := by simp [State.group, State.reset]

/-- Settles O11: the device is `State.reset` but for the image, whose four cases are those of the operation cut off. -/
theorem resetLeavesResetValues : Obligations.ResetLeavesResetValues := by
  intro b s
  refine ⟨resetDevice b s, rfl, ch_reset, link_reset, group_reset, rfl, rfl, rfl, rfl, rfl, rfl, rfl, rfl, rfl, rfl, rfl,
    ?busy, ?idle, ?channel, ?global, ?erase, rfl, rfl, rfl, rfl⟩ <;>
    dsimp only [resetDevice]
  case busy =>
    unfold imageAfterReset
    split
    · assumption
    · split <;> rfl
  case idle => exact fun h => imageAfterReset_idle _ _ h
  case channel =>
    intro job c r hb hj
    rw [imageAfterReset_storeChannel _ _ hb hj]
    refine ⟨?_, rfl, fun d hd => storeChannelRecord_other hd ..⟩
    change ((cutChannel c s.nvc).channels[c]).condition c.val = _
    rw [cutChannel, storeChannelRecord_same]
    exact condition_writtenRecord ..
  case global =>
    intro job g hb hj
    rw [imageAfterReset_global _ _ hb hj]
    exact ⟨condition_writtenRecord .., rfl⟩
  case erase =>
    intro job hb hj
    rw [imageAfterReset_erase _ _ hb hj]
    generalize hn : min 8 (Config.erasedAfter (s.clock.now - job.since) s.fresh) = n
    refine ⟨n, by omega, (condition_cutErased n 0 ..).1, fun h => (condition_cutErased n 0 ..).2.1 h.symm, fun c => ?_⟩
    rw [cutErase_channel]
    exact condition_cutErased ..

/-! ## STORE and CAL LOCK begin (R188, R190) -/

@[simp] theorem chanOf_fifteen : chanOf 15#4 = none := rfl

theorem isPanel15_of_chanOf {p : BitVec 4} {c : Chan} (h : chanOf p = some c) : isPanel15 p = false := by
  refine Bool.eq_false_iff.mpr fun hp => ?_
  rw [show p = 15 by simpa [isPanel15] using hp] at h
  cases h

section
variable {x : Client} {p : BitVec 4} {c : Chan} {s : State} (hc : s.hasRight x .calibrate = true)
include hc

theorem storeRequest_channel (hp : chanOf p = some c) : storeRequest x p 0 0 s =
    if s.nvc.busy.isSome then refuse .busy s else ⟨.done, 0, beginStore c s⟩ := by
  cases hb : s.nvc.busy.isSome <;> simp [storeRequest, firstFailing, failsIf, hp, hc, hb]

theorem storeRequest_global : storeRequest x 15 0 0 s =
    if s.nvc.busy.isSome then refuse .busy s else ⟨.done, 0, beginStoreGlobal s⟩ := by
  cases hb : s.nvc.busy.isSome <;>
    simp [storeRequest, firstFailing, failsIf, isPanel15, hc, hb]

theorem calLockRequest_eq : calLockRequest x 15 0 0 s =
    if s.nvc.busy.isSome then refuse .busy s
    else if s.glob.locked then ⟨.done, 0, s⟩ else ⟨.done, 1, lockCalibration s⟩ := by
  cases hb : s.nvc.busy.isSome <;> simp [calLockRequest, firstFailing, failsIf, isPanel15, hc, hb]

theorem calEraseRequest_eq : calEraseRequest x 15 0 0 s =
    if (s.nvc.busy.isSome || allChans.any fun c => !s.atRest c) = true then refuse .busy s
    else ⟨.done, 0, eraseCalibration s⟩ := by
  cases hb : (s.nvc.busy.isSome || allChans.any fun c => !s.atRest c) <;>
    simp only [calEraseRequest, failsIf, hb] <;> simp [firstFailing, isPanel15, hc]

end

/-- Settles O58: each request is its owner's answer to the received state, the calibration memory being free or
not. -/
theorem storeAndLockBegin : Obligations.StoreAndLockBegin := by
  intro s x p c ha hr hc
  have hc' : (received x s).hasRight x .calibrate = true := hc
  refine ⟨fun hfree => ⟨fun hp => ?_, ?_, fun hl => ?_, fun hl => ?_⟩, fun hbusy => ⟨fun hp => ?_, ?_, ?_⟩⟩
  · exact serve_routed_of_settled hr ((storeRequest_channel hc' hp).trans (by rw [received_nvc, hfree]; rfl)) ha
  · exact serve_routed_of_settled hr ((storeRequest_global hc').trans (by rw [received_nvc, hfree]; rfl)) ha
  · exact serve_routed_of_settled hr ((calLockRequest_eq hc').trans (by rw [received_nvc, hfree, received_glob, hl]; rfl)) ha
  · exact serve_routed_of_answer ha hr ((calLockRequest_eq hc').trans (by rw [received_nvc, hfree, received_glob, hl]; rfl))
  all_goals have hb : s.nvc.busy.isSome = true := Option.isSome_iff_ne_none.mpr hbusy
  · exact serve_routed_of_answer ha hr ((storeRequest_channel hc' hp).trans (by rw [received_nvc, hb]; rfl))
  · exact serve_routed_of_answer ha hr ((calLockRequest_eq hc').trans (by rw [received_nvc, hb]; rfl))
  · exact serve_routed_of_answer ha hr ((calEraseRequest_eq hc').trans (by rw [received_nvc, hb]; rfl))

end Sys2Proof.Machine
end

section
/-! The populated flag (R15, R62), the completions of the calibration memory's operations (R188, R191) and the
start-up load (R186, R187). -/

namespace Sys2Proof.Machine

/-! ## Masks (R176) -/

theorem getLsbD_one_shiftLeft (c d : Chan) : ((1 : BitVec 8) <<< c.val).getLsbD d.val = decide (d = c) := by
  revert c d
  decide

theorem getLsbD_foldl_mask (f : Chan → Bool) (l : List Chan) (m : BitVec 8) (d : Chan) :
    (l.foldl (fun m c => if f c then m ||| ((1 : BitVec 8) <<< c.val) else m) m).getLsbD d.val =
      (m.getLsbD d.val || decide (d ∈ l) && f d) := by
  induction l generalizing m with
  | nil => simp
  | cons c l ih =>
    rw [List.foldl_cons, ih]
    simp only [List.mem_cons]
    by_cases hf : f c = true
    · rw [if_pos hf, BitVec.getLsbD_or, getLsbD_one_shiftLeft]
      by_cases hd : d = c
      · simp [hd, hf]
      · simp [hd]
    · rw [if_neg hf]
      by_cases hd : d = c
      · simp [hd, hf]
      · simp [hd]

/-- R176: bit `c` of a mask is channel `c`'s. -/
@[simp] theorem getLsbD_maskWhere (f : Chan → Bool) (c : Chan) : (maskWhere f).getLsbD c.val = f c := by
  rw [maskWhere, getLsbD_foldl_mask]
  simp [mem_allChans]

theorem inMask_maskWhere (f : Chan → Bool) (c : Chan) : inMask (maskWhere f) c = f c := getLsbD_maskWhere f c

@[simp] theorem getLsbD_maskWord (m : BitVec 8) (c : Chan) : (maskWord m).getLsbD c.val = m.getLsbD c.val := by
  simp [maskWord, Nat.lt_trans c.isLt (by decide : 8 < 16)]

/-! ## The populated flag (R15, R62) -/

theorem OnlyChannel.updChan {c : Chan} {s u : State} (h : OnlyChannel c s u) (f : Channel → Channel) :
    OnlyChannel c s (updChan c f u) := h.trans (onlyChannel_updChan c f u)

/-- What a channel holds besides the record once its populated flag has changed. -/
def Channel.cleared (k : Channel) : Channel :=
  { k with
    hif := ⟨none, none, 0, 0, false, [], false, 0, 0, 0⟩
    level := .noneKnown
    moc := { k.moc with motion := .idle, fault := none } }

theorem applyPopulated_spec (c : Chan) (s : State) :
    OnlyChannel c s (applyPopulated c s) ∧ (applyPopulated c s).ch c = (s.ch c).cleared ∧
    applyPopulated c s = { s with chans := (applyPopulated c s).chans, agenda := (applyPopulated c s).agenda } ∧
    ((s.ch c).cal.companion = none → (applyPopulated c s).agenda = s.agenda) := by
  obtain ⟨hself, hother, -, -⟩ := setPosition_spec c 0 false s
  refine ⟨((hother.updChan _).updChan _).updChan _, ?_, ?_,
    fun hc => ?_⟩
  · unfold applyPopulated
    rw [ch_updMoc_self, ch_updChan_self, ch_updHif_self, hself]
    rfl
  · unfold applyPopulated setPosition
    rw [notifyFollower_eq]
    rfl
  · change (setPosition c 0 false s).agenda = s.agenda
    unfold setPosition notifyFollower
    rw [ch_updHif_self]
    simp only [hc]
    rfl

/-! ## Completions (R188, R190, R191) -/

/-- A completion whose event is the only thing that the links hear. -/
theorem exec_storeDone {s u : State} (record result : Nat) (ha : u.agenda = [])
    (hs : s.links = u.links) :
    ∃ t, finish (storeDone record result u) = .next t ∧ OnlyLinks u t ∧ ∀ y, (s.link y).mask.getLsbD 13 = true →
      Holds t y .storeDone none 0 (bytesWord record result) := by
  refine ⟨storeDone record result u, ?_, onlyLinks_post .., fun y hy => ?_⟩
  · rw [finish_eq, settle_of_nil]
    rw [storeDone, post_agenda, ha]
  · rw [link_congr hs.symm y |>.symm] at hy
    exact holds_post_none hy (not_ownLapse nofun)

/-- R188 at the completion of a channel record's write, up to its event. -/
def channelStored (c : Chan) (snapshot : CalRecord) (valid : Bool) (s : State) : State :=
  updCal c (fun r => { r with unsaved := if valid then r.unsaved && r.changed else true })
    { s with nvc := { storeChannelRecord c (writtenRecord c.val valid snapshot) s.nvc with busy := none } }

theorem ch_channelStored (c : Chan) (snapshot : CalRecord) (valid : Bool) (s : State) :
    (channelStored c snapshot valid s).ch c = { s.ch c with cal := { (s.ch c).cal with
      unsaved := if valid then (s.ch c).cal.unsaved && (s.ch c).cal.changed else true } } := ch_updCal_self ..

theorem onlyChannel_channelStored (c : Chan) (snapshot : CalRecord) (valid : Bool) (s : State) :
    OnlyChannel c s (channelStored c snapshot valid s) := fun _ hd => ch_updChan_ne (Ne.symm hd) _ _

/-- R188, R190 at the completion of the global record's write, up to its event. -/
def globalStored (snapshot : GlobalRecord) (valid : Bool) (s : State) : State :=
  { s with
    glob := { s.glob with unsaved := if valid then s.glob.unsaved && s.glob.changed else true }
    nvc := { s.nvc with glob := writtenRecord globalNumber valid snapshot, busy := none } }

section
variable {s : State} {b : Busy} (hb : s.nvc.busy = some b) (hdone : b.done ≤ s.clock.now) (valid : Bool)
include hb hdone

theorem exec_storeCompletion_channel {c : Chan} {snap : CalRecord} (hj : b.job = .storeChannel c snap) :
    exec (.storeCompletion valid) s = finish (storeDone c.val (readBackResult valid) (channelStored c snap valid s)) := by
  change execStoreCompletion valid s = _
  unfold execStoreCompletion
  rw [hb]
  simp only [hdone, if_true, hj]
  rfl

theorem exec_storeCompletion_global {snap : GlobalRecord} (hj : b.job = .storeGlobal snap ∨ b.job = .lockWrite snap) :
    exec (.storeCompletion valid) s =
      finish (storeDone globalNumber (readBackResult valid) (globalStored snap valid s)) := by
  change execStoreCompletion valid s = _
  unfold execStoreCompletion
  rw [hb]
  rcases hj with hj | hj <;> simp only [hdone, if_true, hj] <;> rfl

end

/-- Settles O59: the state before the event is written out; the event changes the links alone. -/
theorem storeCompletes : Obligations.StoreCompletes := by
  refine ⟨fun s b c snap valid ha hb hdone hj => ?_, fun s b snap valid ha hb hdone hj => ?_⟩
  · obtain ⟨t, ht, hl, hh⟩ := exec_storeDone (s := s) (u := channelStored c snap valid s) c.val (readBackResult valid) ha rfl
    refine ⟨t, (exec_storeCompletion_channel hb hdone valid hj).trans ht, by rw [hl]; rfl, ?_, ?_, fun d hd => ?_,
      by rw [hl]; rfl, ?_, ?_, fun d hd => ?_, ?_, hh⟩
    · rw [hl]
      exact congrArg Stored.contents (storeChannelRecord_same ..)
    · rw [hl]
      exact (congrArg (Stored.condition c.val) (storeChannelRecord_same ..)).trans (condition_writtenRecord ..)
    · rw [hl]
      exact storeChannelRecord_other hd ..
    · rw [hl.ch, ch_channelStored]
    · rw [hl.ch, ch_channelStored]
    · rw [hl.ch]
      exact onlyChannel_channelStored _ _ _ _ _ hd
    · rw [hl]
      rfl
  · obtain ⟨t, ht, hl, hh⟩ :=
      exec_storeDone (s := s) (u := globalStored snap valid s) globalNumber (readBackResult valid) ha rfl
    refine ⟨t, (exec_storeCompletion_global hb hdone valid hj).trans ht, ?_, ?_, ?_, ?_, ?_, hh⟩ <;> rw [hl]
    · rfl
    · rfl
    · exact condition_writtenRecord ..
    · rfl
    · rfl

end Sys2Proof.Machine
end

section
/-! CAL ERASE (R191) and the start-up load (R186, R187), channel by channel. -/

namespace Sys2Proof.Machine

/-! ## Nothing but the channels and the links -/

/-- Nothing but what the blocks hold per channel and per link changed. -/
def OnlyParts (s t : State) : Prop := t = { s with chans := t.chans, links := t.links }

theorem OnlyParts.refl (s : State) : OnlyParts s s := rfl

theorem OnlyParts.trans {s t u : State} (h : OnlyParts s t) (k : OnlyParts t u) : OnlyParts s u := by
  unfold OnlyParts at *
  rw [k, h]

theorem OnlyParts.updChan {s u : State} (h : OnlyParts s u) (c : Chan) (f : Channel → Channel) :
    OnlyParts s (updChan c f u) := h.trans rfl

theorem OnlyParts.post {s u : State} (h : OnlyParts s u) (k : EventKind) (c : Option Chan) (w d : Word) :
    OnlyParts s (post k c w d u) := h.trans (by
  have hl := onlyLinks_post k c w d u
  unfold OnlyLinks at hl
  unfold OnlyParts
  rw [hl])

theorem OnlyParts.setLevel {s u : State} (h : OnlyParts s u) (c : Chan) (l : Level) (pos : Int) :
    OnlyParts s (setLevel c l pos u) := by
  unfold Machine.setLevel
  split
  · exact h
  · exact (h.updChan ..).post ..

theorem OnlyParts.applyPopulated {s u : State} (h : OnlyParts s u) {c : Chan} (hc : (u.ch c).cal.companion = none) :
    OnlyParts s (applyPopulated c u) := by
  obtain ⟨-, -, hframe, hagenda⟩ := applyPopulated_spec c u
  refine h.trans ?_
  unfold OnlyParts
  rw [hframe, hagenda hc]

/-! ## One channel of an erase (R191) -/

/-- R191: a level above CLOSED_KNOWN falls to CLOSED_KNOWN. -/
def Level.capped (l : Level) : Level := if levelCode .closedKnown < levelCode l then .closedKnown else l

theorem eraseChannel_spec (s : State) (c : Chan) :
    OnlyParts s (eraseChannel s c) ∧ OnlyChannel c s (eraseChannel s c) ∧
    (eraseChannel s c).ch c = { (if s.populated c then s.ch c else (s.ch c).cleared) with
      cal := defaultCal
      level := (if s.populated c then (s.ch c).level else .noneKnown).capped } := by
  have hcal : ((updCal c (fun _ => defaultCal) s).ch c).cal.companion = none := by rw [ch_updCal_self]; rfl
  have cap (u : State) : OnlyParts u (if levelCode .closedKnown < levelCode (u.ch c).level then
        setLevel c .closedKnown (u.ch c).hif.pos u else u) ∧
      OnlyChannel c u (if levelCode .closedKnown < levelCode (u.ch c).level then
        setLevel c .closedKnown (u.ch c).hif.pos u else u) ∧
      (if levelCode .closedKnown < levelCode (u.ch c).level then
        setLevel c .closedKnown (u.ch c).hif.pos u else u).ch c = { u.ch c with level := (u.ch c).level.capped } := by
    unfold Level.capped
    obtain ⟨hself, hother, -⟩ := setLevel_spec c .closedKnown (u.ch c).hif.pos u
    split
    · exact ⟨(OnlyParts.refl u).setLevel .., hother, hself⟩
    · exact ⟨.refl u, .refl c u, rfl⟩
  obtain ⟨hother, hself, -, -⟩ := applyPopulated_spec c (updCal c (fun _ => defaultCal) s)
  have hcal' : OnlyParts s (updCal c (fun _ => defaultCal) s) := rfl
  unfold eraseChannel
  dsimp only
  by_cases hp : s.populated c = true
  · rw [if_pos hp, if_pos hp, if_pos hp]
    obtain ⟨h1, h2, h3⟩ := cap (updCal c (fun _ => defaultCal) s)
    exact ⟨hcal'.trans h1, ((OnlyChannel.refl c s).updChan _).trans h2, h3.trans (by rw [ch_updCal_self])⟩
  · rw [if_neg hp, if_neg hp, if_neg hp]
    obtain ⟨h1, h2, h3⟩ := cap (applyPopulated c (updCal c (fun _ => defaultCal) s))
    refine ⟨(hcal'.applyPopulated hcal).trans h1, (((OnlyChannel.refl c s).updChan _).trans hother).trans h2, h3.trans ?_⟩
    rw [hself, ch_updCal_self]
    rfl

theorem eraseCalibration_spec {s : State} : 
    ∃ u, eraseCalibration s = beginJob .erase 60000 (discardStaging u) ∧ OnlyParts { s with glob := defaultGlobal } u ∧
    ∀ c, u.ch c = { (if s.populated c then s.ch c else (s.ch c).cleared) with
      cal := defaultCal
      level := (if s.populated c then (s.ch c).level else .noneKnown).capped } := by
  refine ⟨allChans.foldl eraseChannel { s with glob := defaultGlobal }, rfl, ?_⟩
  exact foldl_allChans (I := OnlyParts { s with glob := defaultGlobal })
    (P := fun _ k k' => k' = { (if k.cal.populated then k else k.cleared) with
      cal := defaultCal
      level := (if k.cal.populated then k.level else .noneKnown).capped })
    (fun c h => h.trans (eraseChannel_spec _ c).1) (fun c _ => (eraseChannel_spec _ c).2.1)
    (fun c _ => (eraseChannel_spec _ c).2.2) (.refl _)

theorem onlyParts_agenda {s t : State} (h : OnlyParts s t) : t.agenda = s.agenda := by rw [h]

/-- CAL_ERASE_COMPLETION of an erase that is due (R191). -/
theorem exec_calEraseCompletion {s : State} {since done : Nat} (hb : s.nvc.busy = some ⟨.erase, since, done⟩)
    (hdone : done ≤ s.clock.now) : exec .calEraseCompletion s = finish (imageErased s) := by
  change execCalEraseCompletion s = _
  unfold execCalEraseCompletion
  rw [hb]
  simp only [hdone, and_self, if_true]

/-- Settles O60: the erase treats each channel once; its completion is a blank image and one event. -/
theorem calEraseErases : Obligations.CalEraseErases := by
  intro s x hcalm hr hc hfree hrest
  obtain ⟨u, hu, hframe, hch⟩ := eraseCalibration_spec (s := received x s)
  have hc' : (received x s).hasRight x .calibrate = true := hc
  have hreq : calEraseRequest x 15 0 0 (received x s) = ⟨.done, 0, eraseCalibration (received x s)⟩ := by
    rw [calEraseRequest_eq hc', if_neg]
    simp only [received_nvc, hfree, Option.isSome_none, Bool.false_or, List.any_eq_true, Bool.not_eq_true', not_exists,
      not_and, Bool.not_eq_false]
    exact fun c _ => hrest c
  have hag : (eraseCalibration (received x s)).agenda = [] := by
    rw [hu]
    exact (onlyParts_agenda hframe).trans hcalm.1
  refine ⟨_, serve_routed_of_settled hr hreq hag, replies_setReply .., ?_⟩
  rw [hu]
  have hcu (c : Chan) : (setReply x .done 0 (beginJob .erase 60000 (discardStaging u))).ch c = u.ch c := rfl
  refine ⟨fun c => ?_, ?_, rfl, ?_, ?_, ?_, fun c => ?_, fun c hp => ?_, fun v hv hb hnow => ?_⟩
  · rw [hcu, hch]
  · change u.glob = _; rw [hframe]
  · change some (Busy.mk .erase u.clock.now (u.clock.now + 60000)) = _; rw [hframe]; rfl
  · change u.nvc.channels = _; rw [hframe]; rfl
  · change u.nvc.glob = _; rw [hframe]; rfl
  · rw [hcu, hch]
    dsimp only
    split <;> rfl
  · have hp' : (received x s).populated c = true := hp
    rw [hcu, hch]
    simp only [hp', if_true]
    refine ⟨rfl, rfl, ?_, ?_⟩ <;> rintro (h | h) <;> simp only [ch_received, h] <;> rfl
  · have hbusy : v.nvc.busy = some ⟨.erase, s.clock.now, s.clock.now + 60000⟩ := by
      rw [hb]
      change some (Busy.mk .erase u.clock.now (u.clock.now + 60000)) = _
      rw [hframe]
      rfl
    obtain ⟨t, ht, hl, hh⟩ := exec_storeDone (s := v) (u := { v with nvc := blankImage }) globalNumber 1 hv rfl
    have hcond {c : Chan} : blankImage.channels[c] = blankRecord defaultCal := by simp [blankImage]
    refine ⟨t, (exec_calEraseCompletion hbusy hnow).trans ht, by rw [hl]; rfl, fun c => ?_, ?_, by rw [hl], hh⟩ <;> rw [hl]
    · exact (congrArg (Stored.condition c.val) hcond).trans (condition_blankRecord ..)
    · exact condition_blankRecord ..

end Sys2Proof.Machine
end

section
/-! The start-up load (R186, R187). -/

namespace Sys2Proof.Machine

/-! ## What a stored record loads as (R185, R186) -/

section
variable {α : Type} {n : Nat} {r : Stored α}

theorem condition_valid (h : r.version = 2 ∧ r.number = n ∧ r.sumOk = true) : r.condition n = .valid := by
  obtain ⟨hv, hn, hs⟩ := h
  rw [Stored.condition, if_pos ⟨hv, hn⟩, if_pos hs]

theorem condition_blank (h : r.version ≠ 2 ∨ r.number ≠ n) : r.condition n = .blank :=
  if_neg fun ⟨hv, hn⟩ => h.elim (· hv) (· hn)

theorem condition_corrupt : r.condition n = .corrupt ↔ r.version = 2 ∧ r.number = n ∧ r.sumOk = false := by
  unfold Stored.condition
  constructor
  · intro h
    split at h
    · next hm =>
      split at h
      · cases h
      · next hs => exact ⟨hm.1, hm.2, by simpa using hs⟩
    · cases h
  · rintro ⟨hv, hn, hs⟩
    rw [if_pos ⟨hv, hn⟩, if_neg (by simp [hs])]

end

/-! ## The companion check (R186) -/

section
variable {v : Nvc} {p : Chan}

theorem working_of_no_companion (h : (v.loaded p).companion = none) : v.working p = v.loaded p := by
  rw [Nvc.working, h]

theorem working_of_companion {c : Chan} (h : (v.loaded p).companion = some c) : v.working p =
    if v.companionBad p c then { v.loaded p with companion := none, unsaved := true } else v.loaded p := by
  rw [Nvc.working, h]

theorem companionBad_iff {c : Chan} : v.companionBad p c = true ↔
    (v.loaded c).populated = false ∨ (v.loaded c).companion ≠ none ∨ (v.loaded p).populated = false ∨
      ∃ q, q ≠ p ∧ (v.loaded q).companion = some p := by
  simp only [Nvc.companionBad, Bool.or_eq_true, Bool.not_eq_true', Option.isSome_iff_ne_none, List.any_eq_true,
    mem_allChans, true_and, Bool.and_eq_true, decide_eq_true_eq, or_assoc]

/-- R62, R186: an unpopulated channel's record names no companion after the check. -/
theorem companion_of_unpopulated (h : (v.working p).populated = false) : (v.working p).companion = none := by
  cases hc : (v.loaded p).companion with
  | none => rw [working_of_no_companion hc, hc]
  | some c =>
    rw [working_of_companion hc] at h ⊢
    split
    · rfl
    · next hb =>
      rw [if_neg hb] at h
      exact absurd (companionBad_iff.mpr (.inr (.inr (.inl h)))) hb

end

/-! ## The load, channel by channel -/

theorem loadChannel_spec (s : State) (c : Chan) :
    OnlyParts s (loadChannel s c) ∧ (loadChannel s c).links = s.links ∧ OnlyChannel c s (loadChannel s c) ∧
    ((loadChannel s c).ch c).cal = s.nvc.working c ∧
    ((s.nvc.working c).populated = true → ((loadChannel s c).ch c).hif = (s.ch c).hif) ∧
    ((s.nvc.working c).populated = false → ((loadChannel s c).ch c).hif = resetHif ∧
      ((loadChannel s c).ch c).level = .noneKnown) := by
  obtain ⟨hother, hself, hframe, -⟩ := applyPopulated_spec c (updCal c (fun _ => s.nvc.working c) s)
  have hcal : OnlyParts s (updCal c (fun _ => s.nvc.working c) s) := rfl
  unfold loadChannel
  dsimp only
  by_cases hp : (s.nvc.working c).populated = true
  · rw [if_pos hp]
    refine ⟨hcal.updChan .., rfl, ((OnlyChannel.refl c s).updChan _).updChan _, ?_, fun _ => ?_, fun h => ?_⟩
    · rw [ch_updMoc_self, ch_updCal_self]
    · rw [ch_updMoc_self, ch_updCal_self]
    · rw [hp] at h; cases h
  · rw [if_neg hp]
    have hnone : ((updCal c (fun _ => s.nvc.working c) s).ch c).cal.companion = none := by
      rw [ch_updCal_self]
      exact companion_of_unpopulated (by simpa using hp)
    refine ⟨(hcal.applyPopulated hnone).updChan .., ?_, (((OnlyChannel.refl c s).updChan _).trans hother).updChan _, ?_,
      fun h => absurd h hp, fun _ => ?_⟩
    · change (applyPopulated c (updCal c (fun _ => s.nvc.working c) s)).links = _
      rw [hframe]
      rfl
    · rw [ch_updMoc_self, hself, ch_updCal_self]
      rfl
    · rw [ch_updMoc_self, hself]
      exact ⟨rfl, rfl⟩

/-- What the load makes of the channels and, before STARTUP, of the rest. -/
theorem loadAll_spec (s : State) : ∃ u,
    loadAll s = post .startup none 0 s.nvc.corruptBits { u with
      calLoaded := true, ready := true, stb := { u.stb with sectorOne := false, since := u.clock.now } } ∧
    OnlyParts { s with glob := loadGlobalRecord s.nvc.glob } u ∧ u.links = s.links ∧
    ∀ c, (u.ch c).cal = s.nvc.working c ∧
      ((s.nvc.working c).populated = true → (u.ch c).hif = (s.ch c).hif) ∧
      ((s.nvc.working c).populated = false → (u.ch c).hif = resetHif ∧ (u.ch c).level = .noneKnown) := by
  have hnvc {u : State} (h : OnlyParts { s with glob := loadGlobalRecord s.nvc.glob } u) : u.nvc = s.nvc := by rw [h]
  obtain ⟨⟨hframe, hlinks⟩, hch⟩ := foldl_allChans (f := loadChannel)
    (I := fun u => OnlyParts { s with glob := loadGlobalRecord s.nvc.glob } u ∧ u.links = s.links)
    (P := fun c k k' => k'.cal = s.nvc.working c ∧ ((s.nvc.working c).populated = true → k'.hif = k.hif) ∧
      ((s.nvc.working c).populated = false → k'.hif = resetHif ∧ k'.level = .noneKnown))
    (fun {u} c h => ⟨h.1.trans (loadChannel_spec u c).1, (loadChannel_spec u c).2.1.trans h.2⟩)
    (fun {u} c _ => (loadChannel_spec u c).2.2.1)
    (fun {u} c h => hnvc h.1 ▸ (loadChannel_spec u c).2.2.2) ⟨.refl _, rfl⟩
  refine ⟨_, ?_, hframe, hlinks, hch⟩
  unfold loadAll
  dsimp only
  rw [hnvc hframe]

theorem extract_corruptBits (v : Nvc) : v.corruptBits.extractLsb' 9 7 = 0 ∧
    v.corruptBits.getLsbD 8 = decide (v.glob.condition globalNumber = .corrupt) ∧
    ∀ c : Chan, v.corruptBits.getLsbD c.val = decide (v.channels[c].condition c.val = .corrupt) := by
  have hhigh (i : Nat) (hi : 8 ≤ i) (m : BitVec 8) : (maskWord m).getLsbD i = false := by
    simp [maskWord, BitVec.getLsbD_of_ge m i hi]
  have hbit (b : Bool) : natWord (256 * bit b) = if b then 0x100 else 0 := by cases b <;> rfl
  unfold Nvc.corruptBits
  rw [hbit]
  refine ⟨?_, ?_, fun c => ?_⟩
  · ext i hi
    rw [BitVec.getElem_extractLsb', BitVec.getLsbD_or, hhigh _ (by omega), Bool.or_false]
    split <;> revert i <;> decide
  · rw [BitVec.getLsbD_or, hhigh 8 (by omega), Bool.or_false]
    split <;> simp_all
  · rw [BitVec.getLsbD_or, getLsbD_maskWord, getLsbD_maskWhere]
    have hzero : (if decide (v.glob.condition globalNumber = .corrupt) = true then (0x100 : Word) else 0).getLsbD c.val =
        false := by
      split <;> revert c <;> decide
    rw [hzero, Bool.false_or]

/-- Settles O12: the load treats each channel once, then raises READY and posts STARTUP. -/
theorem startUpLoadCompletes : Obligations.StartUpLoadCompletes := by
  intro s hr ha
  obtain ⟨u, hu, hframe, hlinks, hch⟩ := loadAll_spec s
  have hag : (loadAll s).agenda = [] := by
    rw [hu, post_agenda]
    exact (onlyParts_agenda hframe).trans ha
  have hexec : exec .startUpLoad s = .next (loadAll s) := by
    change execStartUpLoad s = _
    rw [execStartUpLoad, hr, finish_eq]
    exact congrArg _ (settle_of_nil hag)
  refine ⟨_, hexec, ?_⟩
  obtain ⟨hcorrupt, hcorruptGlob, hcorruptChan⟩ := extract_corruptBits s.nvc
  rw [hu]
  have hcu (c : Chan) := (onlyLinks_post .startup none 0 s.nvc.corruptBits { u with
    calLoaded := true, ready := true, stb := { u.stb with sectorOne := false, since := u.clock.now } }).ch c
  refine ⟨post_ready .., post_calLoaded .., ?_, fun c => ?_, ?_, fun y hy => ?_, fun c hp => ?_, fun c hp => ?_,
    fun n r => ⟨fun h => ?_, fun h => ?_, fun h => ?_⟩, fun p => ⟨working_of_no_companion, fun c hc => ⟨fun hb => ?_,
      fun h1 h2 h3 h4 => ?_⟩⟩, fun g => ⟨fun h => ?_, fun h => ?_, fun h => ?_⟩, fun c => ?_, ?_, hcorrupt,
    ?_, ?_, ?_⟩
  · rw [post_glob]; dsimp only; rw [hframe]
  · rw [hcu]; exact (hch c).1
  · rw [post_stb]; dsimp only; rw [hframe]
  · refine holds_post_none ?_ (not_ownLapse nofun)
    rw [← link_congr hlinks y] at hy
    exact hy
  · rw [hcu]; exact (hch c).2.1 hp
  · obtain ⟨h1, h2⟩ := (hch c).2.2 hp
    rw [hcu]
    change (u.ch c).hif.pos = 0 ∧ (u.ch c).hif.posValid = false ∧ (u.ch c).hif.phase = none ∧ (u.ch c).level = _
    rw [h1]
    exact ⟨rfl, rfl, rfl, h2⟩
  · rw [loadChannelRecord, condition_valid h]; rfl
  · rw [loadChannelRecord, condition_blank h]
  · rw [loadChannelRecord, condition_corrupt.mpr h]
  · rw [working_of_companion hc, if_pos (companionBad_iff.mpr hb)]; rfl
  · rw [working_of_companion hc, if_neg fun hb => ?_]
    · rfl
    · rcases companionBad_iff.mp hb with h | h | h | ⟨q, hq, h⟩
      · exact Bool.false_ne_true (h.symm.trans h1)
      · exact h h2
      · exact Bool.false_ne_true (h.symm.trans h3)
      · exact h4 q hq h
  · rw [loadGlobalRecord, condition_valid (n := globalNumber) h]; rfl
  · rw [loadGlobalRecord, condition_blank (n := globalNumber) h]
  · rw [loadGlobalRecord, condition_corrupt (n := globalNumber) |>.mpr h]
  · rw [hcorruptChan, decide_eq_true_eq, condition_corrupt]
  · rw [hcorruptGlob, decide_eq_true_eq, condition_corrupt]; rfl
  · rw [post_nvc]; dsimp only; rw [hframe]
  · rw [post_clock]; dsimp only; rw [hframe]
  · rw [post_sup]; dsimp only; rw [hframe]

end Sys2Proof.Machine
end

section
/-! Settles O28, O29 and O30: LDE's take in turn, how it sorts a record and what its completion writes, and the
arithmetic of a computed step. -/

namespace Sys2Proof.Machine

/-! ## The round robin (R30) -/

theorem length_searchOrder (last : Chan) : (searchOrder last).length = 8 := by simp [searchOrder]

/-- R30: place `n` of the search order is `n + 1` channels after the last served. -/
theorem getElem_searchOrder : ∀ (last : Chan) (n : Fin 8),
    (searchOrder last)[n.val]'(by rw [length_searchOrder]; exact n.isLt) = last + 1 + n := by decide

theorem after_place : ∀ last c : Chan, last + 1 + (c - last - 1) = c := by decide

theorem place_after : ∀ (last : Chan) (n : Chan), last + 1 + n - last - 1 = n := by decide

/-- R30: the channel served next holds a record, and none that comes before it in the search order does. -/
theorem nextServed_eq_some {s : State} {c : Chan} (hc : (s.ch c).hif.fifo ≠ [])
    (hb : ∀ d : Chan, (d - s.lde.lastServed - 1).val < (c - s.lde.lastServed - 1).val → (s.ch d).hif.fifo = []) :
    s.nextServed = some c := by
  have hlt := (c - s.lde.lastServed - 1).isLt
  refine List.find?_eq_some_iff_getElem.mpr ⟨by simpa using hc, (c - s.lde.lastServed - 1).val, ?_, ?_, ?_⟩
  · rw [length_searchOrder]; exact hlt
  · rw [getElem_searchOrder, after_place]
  · intro j hj
    have hplace := getElem_searchOrder s.lde.lastServed ⟨j, hj.trans hlt⟩
    rw [hplace, hb _ (by rw [place_after]; exact hj)]
    rfl

/-! ## The take (R13, R31) -/

@[simp] theorem ch_withLde (s : State) (l : Lde) (c : Chan) : ({ s with lde := l } : State).ch c = s.ch c := rfl

theorem OnlyChannel.withLde {c : Chan} {s u : State} (h : OnlyChannel c s u) (l : Lde) :
    OnlyChannel c s { u with lde := l } := h

section
variable {s : State} {c : Chan} {r : Capture} {rest : List Capture}

theorem takeNext_of_next (hl : s.lde.busy = none) (hn : s.nextServed = some c) (hf : (s.ch c).hif.fifo = r :: rest) :
    takeNext s =
      { updHif c (fun h => { h with fifo := rest, gap := false }) s with lde := ⟨c, some (s.takeOf c r)⟩ } := by
  simp [takeNext, hl, hn, hf]

theorem takenK_idle (h : (s.ch c).moc.motion.drive = none ∨ (s.ch c).moc.order = none) : s.takenK c = 0 := by
  rcases h with h | h <;> simp [State.takenK, State.driveIsOn, h]

theorem takenLearnClose_idle (h : (s.ch c).moc.motion.drive = none ∨ (s.ch c).moc.order = none) :
    s.takenLearnClose c = false := by
  rcases h with h | h <;> simp [State.takenLearnClose, State.driveIsOn, h]

theorem driveIsOn_of_ne (h : (s.ch c).moc.motion.drive ≠ none) : s.driveIsOn c = true :=
  Option.isSome_iff_ne_none.mpr h

end

/-- Settles O28: the channel first in the search order that holds a record is found, and the take is written out. -/
theorem ldeTakesInTurn : Obligations.LdeTakesInTurn := by
  intro s c r rest ha hl hf hb
  have hn : s.nextServed = some c := nextServed_eq_some (by simp [hf]) hb
  have hex : exec .ldeTake s = .next (takeNext s) := by
    show Host.Outcome.next (settle (takeNext s)) = _
    rw [settle_of_nil]
    rw [takeNext_of_next hl hn hf]; exact ha
  refine ⟨takeNext s, hex, ?_⟩
  rw [takeNext_of_next hl hn hf]
  refine ⟨(onlyChannel_updChan c _ s).withLde _, rfl, rfl, ?_, s.takeOf c r, rfl, rfl, rfl, rfl, rfl, rfl, rfl, rfl, rfl, rfl, rfl,
    fun hidle => ⟨takenK_idle hidle, takenLearnClose_idle hidle⟩, fun o hd ho => ?_⟩
  · rw [ch_withLde, ch_updHif_self]
  · have hdrive := driveIsOn_of_ne hd
    exact ⟨by simp [State.takeOf, State.takenK, hdrive, ho], by simp [State.takeOf, State.takenLearnClose, hdrive, ho]⟩

/-! ## The completion (R31, R32, R35) -/

/-- R31: the state once LDE is free again and `k` is the context of the channel it served. -/
def written (t : Take) (k : LoadContext) (s : State) : State :=
  { updCtx t.chan (fun _ => k) s with lde := { s.lde with busy := none } }

/-- R35, R164: the completion of a computed step of a learning close that was taken outside NORMAL. -/
def marksSupply (t : Take) (k : LoadContext) : Bool := isComputed t k && t.learnClose && decide (t.supply ≠ .normal)

section
variable {s : State} {t : Take} {k : LoadContext}

theorem completeTake_of_dropped (h : t.dropped = true) :
    completeTake t s = { s with lde := { s.lde with busy := none } } := if_pos h

theorem completeTake_of_none (hd : t.dropped = false) (hr : treatRecord t (s.ch t.chan).ctx = (k, none)) :
    completeTake t s = if marksSupply t (s.ch t.chan).ctx then markSupply t.chan (written t k s) else written t k s := by
  have hch : ({ s with lde := { s.lde with busy := none } } : State).ch t.chan = s.ch t.chan := rfl
  simp only [completeTake, hd, Bool.false_eq_true, if_false, hch, hr]
  rfl

theorem markSupply_of_no_order {c : Chan} (h : (s.ch c).moc.order = none) : markSupply c s = s := by
  simp only [markSupply, h]

theorem markSupply_of_closing_half {c : Chan} {o : Order} (h : (s.ch c).moc.order = some o) (hp : o.phase = .refClosing) :
    markSupply c s = updLearning c (fun l => { l with mark := some (l.mark.getD .supply) }) s := by
  simp only [markSupply, h, hp, if_true]

theorem order_written : ((written t k s).ch t.chan).moc.order = (s.ch t.chan).moc.order := by
  rw [written, ch_withLde, ch_updCtx_self]

/-- R31: the completion of a take ends as its own effect left it: it leaves nothing to be done. -/
theorem exec_ldeCompletion (hb : s.lde.busy = some t) (hc : (completeTake t s).agenda = []) :
    exec .ldeCompletion s = .next (completeTake t s) := by
  show Host.Outcome.next (settle (match s.lde.busy with | some t => completeTake t s | none => s)) = _
  simp only [hb, settle_of_nil hc]

theorem exec_ldeCompletion_of_none (ha : s.agenda = []) (hb : s.lde.busy = some t) (hd : t.dropped = false)
    (hr : treatRecord t (s.ch t.chan).ctx = (k, none))
    (hm : marksSupply t (s.ch t.chan).ctx = false ∨ (s.ch t.chan).moc.order = none) :
    exec .ldeCompletion s = .next (written t k s) := by
  have hw : completeTake t s = written t k s := by
    rw [completeTake_of_none hd hr]
    rcases hm with hm | hm
    · rw [hm]; rfl
    · rw [markSupply_of_no_order (order_written.trans hm), ite_self]
  rw [← hw]
  exact exec_ldeCompletion hb (hw ▸ ha)

/-- R35, R164: the mark that a learning close taken outside NORMAL leaves. -/
theorem exec_ldeCompletion_marked {o : Order} (ha : s.agenda = []) (hb : s.lde.busy = some t) (hd : t.dropped = false)
    (hr : treatRecord t (s.ch t.chan).ctx = (k, none)) (hm : marksSupply t (s.ch t.chan).ctx = true)
    (ho : (s.ch t.chan).moc.order = some o) (hp : o.phase = .refClosing) :
    exec .ldeCompletion s =
      .next (updLearning t.chan (fun l => { l with mark := some (l.mark.getD .supply) }) (written t k s)) := by
  have hw : completeTake t s =
      updLearning t.chan (fun l => { l with mark := some (l.mark.getD .supply) }) (written t k s) := by
    rw [completeTake_of_none hd hr, hm, if_pos rfl, markSupply_of_closing_half (order_written.trans ho) hp]
  rw [← hw]
  exact exec_ldeCompletion hb (hw ▸ ha)

end

/-! ## How LDE sorts a record (R32) -/

section
variable {t : Take} {k : LoadContext}

theorem isComputed_iff : isComputed t k = true ↔
    k.runDir = some .closing ∧ k.decided = false ∧ t.record.dir = .closing ∧ t.gap = false ∧ k.seeded = true := by
  simp [isComputed, and_assoc]

theorem marksSupply_iff : marksSupply t k = true ↔
    isComputed t k = true ∧ t.learnClose = true ∧ t.supply ≠ .normal := by
  simp [marksSupply, and_assoc]

theorem not_marksSupply (h : isComputed t k = true → t.learnClose = true → t.supply = .normal) :
    marksSupply t k = false := by
  rw [Bool.eq_false_iff, Ne, marksSupply_iff]
  exact fun ⟨hc, hl, hs⟩ => hs (h hc hl)

theorem treatRecord_idle (h : k.runDir ≠ some .closing ∨ k.decided = true) : treatRecord t k = (k, none) := by
  rcases h with h | h <;> simp [treatRecord, h]

variable (hr : k.runDir = some .closing) (hd : k.decided = false)
include hr hd

theorem treatRecord_contrary (h : t.record.dir = .opening) : treatRecord t k = ({ k with seeded := false }, none) := by
  simp [treatRecord, hr, hd, h]

theorem treatRecord_seed (h : t.record.dir = .closing) (hs : t.gap = true ∨ k.seeded = false) :
    treatRecord t k = (seedStep t k, none) := by
  rcases hs with hs | hs <;> simp [treatRecord, hr, hd, h, hs]

theorem treatRecord_computed (h : t.record.dir = .closing) (hg : t.gap = false) (hs : k.seeded = true) :
    treatRecord t k = computedStep t k := by
  simp [treatRecord, hr, hd, h, hg, hs]

end

/-- Settles O29: the record is sorted along R32, and each class that gives no decision is written as it stands. -/
theorem ldeCompletionWritesTheContext : Obligations.LdeCompletionWritesTheContext := by
  intro s t ha hb k step wrote
  refine ⟨fun hd => ?dropped, fun hd => ⟨fun hidle => ?idle, fun hr hu => ⟨fun hdir => ?contrary, fun hdir hs => ?seed,
    fun hdir hg hs => ⟨treatRecord_computed hr hu hdir hg hs, fun hnone => ?computed⟩⟩⟩⟩
  case dropped =>
    rw [exec_ldeCompletion hb (by rw [completeTake_of_dropped hd]; exact ha), completeTake_of_dropped hd]
  case idle =>
    have hidle' : k.runDir ≠ some .closing ∨ k.decided = true := hidle.imp_left (by simp_all)
    refine ⟨exec_ldeCompletion_of_none ha hb hd (treatRecord_idle hidle') (.inl (not_marksSupply fun hc => ?_)),
      treatRecord_idle hidle'⟩
    obtain ⟨hrun, hund, -⟩ := isComputed_iff.mp hc
    exact absurd hidle' (by simp [k, hrun, hund])
  case contrary =>
    refine exec_ldeCompletion_of_none ha hb hd (treatRecord_contrary hr hu hdir) (.inl (not_marksSupply fun hc => ?_))
    exact absurd (isComputed_iff.mp hc).2.2.1 (by simp [hdir])
  case seed =>
    refine exec_ldeCompletion_of_none ha hb hd (treatRecord_seed hr hu hdir hs) (.inl (not_marksSupply fun hc => ?_))
    obtain ⟨-, -, -, hgap, hseeded⟩ := isComputed_iff.mp hc
    exact absurd hs (by simp [k, hgap, hseeded])
  case computed =>
    have htreat : treatRecord t k = (step.1, none) := by
      rw [treatRecord_computed hr hu hdir hg hs, ← hnone]
    refine ⟨fun hquiet => exec_ldeCompletion_of_none ha hb hd htreat ?_, fun o hl hsup ho hp => ?_⟩
    · rcases hquiet with hl | hn | ho
      · exact .inl (not_marksSupply fun _ hl' => absurd hl' (by simp [hl]))
      · exact .inl (not_marksSupply fun _ _ => hn)
      · exact .inr ho
    · exact exec_ldeCompletion_marked ha hb hd htreat
        (marksSupply_iff.mpr ⟨isComputed_iff.mpr ⟨hr, hu, hdir, hg, hs⟩, hl, hsup⟩) ho hp

/-! ## The arithmetic of a computed step (R33 to R45, R49) -/

/-- R33, R34: the compensated period of a record. -/
def compensated (t : Take) (k : LoadContext) : Nat := compensate (period t.record.stamp k.tPrev) t.record.reading

section
variable (t : Take) (k : LoadContext)

@[simp] theorem markDecided_joltCount (d : Option Decision) : (markDecided d k).joltCount = k.joltCount := by
  unfold markDecided; split <;> rfl

theorem markDecided_eq (d : Option Decision) : markDecided d k = { k with decided := k.decided || d.isSome } := by
  unfold markDecided
  split <;> simp_all

/-- Both regimes share everything but S, A, the jolt count and decided. -/
theorem computedStep_common : ∃ (sm : Int) (a j : Nat) (d : Bool), (computedStep t k).1 =
    { commonStep t (compensated t k) k with smoothed := sm, excess := a, joltCount := j, decided := d } := by
  refine ⟨(computedStep t k).1.smoothed, (computedStep t k).1.excess, (computedStep t k).1.joltCount,
    (computedStep t k).1.decided, ?_⟩
  cases hf : isFull t k with
  | true =>
    rw [computedStep_of_full hf, markDecided_eq]
    rfl
  | false =>
    rw [computedStep_of_absolute hf, markDecided_eq]
    rfl

theorem isRunUp_eq_false : isRunUp t k = false ↔ t.cal.nr ≤ k.runUp := by simp [isRunUp]

theorem isBlanked_iff : isBlanked t k = true ↔ 0 < t.blank ∧ t.cal.nr ≤ k.runUp := by simp [isBlanked, isRunUp]

theorem isFull_iff : isFull t k = true ↔ t.level = .learned ∧ t.cal.nr ≤ k.runUp ∧ t.learnClose = false := by
  simp [isFull, isRunUp, and_assoc]

variable (pc : Nat)

theorem commonStep_runUp :
    (commonStep t pc k).runUp = if k.runUp < t.cal.nr then k.runUp + 1 else k.runUp := by
  simp [commonStep, isRunUp]

theorem commonStep_blank (hr : t.reblanked = false) (hb : t.blank = k.blank) :
    (commonStep t pc k).blank = if 0 < k.blank ∧ t.cal.nr ≤ k.runUp then k.blank - 1 else k.blank := by
  simp only [commonStep, hr, Bool.false_eq_true, if_false, isBlanked_iff, hb]

/-- R49: a step is counted with Lt present, past the run-up and not blanked. -/
theorem commonStep_bands_counted {lt : Nat} (ht : t.cal.travel = some lt) (hr : t.cal.nr ≤ k.runUp) (hb : t.blank = 0) :
    (commonStep t pc k).bands = countBand k.bands (bandOf lt t.record.pos) pc := by
  have hrun := (isRunUp_eq_false t k).mpr hr
  simp [commonStep, ht, hrun, isBlanked, hb]

theorem commonStep_bands_uncounted (h : t.cal.travel = none ∨ k.runUp < t.cal.nr ∨ 0 < t.blank) :
    (commonStep t pc k).bands = k.bands := by
  cases ht : t.cal.travel with
  | none => simp [commonStep, ht]
  | some lt =>
    have hskip : (!isRunUp t k && !isBlanked t k) = false := by
      rcases h with h | h | h
      · exact absurd h (by simp [ht])
      · simp [isRunUp, h]
      · by_cases hr : k.runUp < t.cal.nr <;> simp [isBlanked, isRunUp, h, hr]
    simp [commonStep, ht, hskip]

/-- R49: one band takes the step, up to 32 counts, and the others stand. -/
theorem countBand_spec (bands : Vector BandSum 127) (b : Fin 127) :
    (countBand bands b.val pc)[b] =
        (if bands[b].count < 32 then ⟨bands[b].sum + pc, bands[b].count + 1⟩ else bands[b]) ∧
      ∀ e : Fin 127, e ≠ b → (countBand bands b.val pc)[e] = bands[e] := by
  have hb := b.isLt
  constructor
  · simp only [countBand, hb, dif_pos]
    split <;> simp_all
  · intro e he
    have hne : b.val ≠ e.val := fun h => he (Fin.ext h.symm)
    simp only [countBand, hb, dif_pos]
    split <;> simp [hne]

theorem accumulate_above {a t' : Nat} {x : Int} (h : (t' : Int) < x) :
    (accumulate a x t' : Int) = min 65535 (a + (x - t')) := by
  rw [accumulate, if_pos h]
  omega

theorem accumulate_below {a t' : Nat} {x : Int} (h : x ≤ (t' : Int)) :
    (accumulate a x t' : Int) = max 0 (a - (t' - x)) := by
  rw [accumulate, if_neg (not_lt.mpr h)]
  omega

theorem limitedFigure_eq (l sp : Int) (j : Nat) : limitedFigure l sp j = min l (sp + j) := by
  unfold limitedFigure
  split <;> omega

end

section
variable {t : Take} {k : LoadContext}

theorem computedStep_of_full_fields (hf : isFull t k = true) :
    let after := fullStep t (compensated t k) ((reference t.cal t.record.pos).getD 0) k
    (computedStep t k).1.smoothed = after.smoothed ∧ (computedStep t k).1.excess = after.excess ∧
      (computedStep t k).1.joltCount = after.joltCount := by
  rw [computedStep_of_full hf]
  simp only [markDecided_smoothed, markDecided_excess, markDecided_joltCount]
  exact ⟨rfl, rfl, rfl⟩

theorem computedStep_of_absolute_fields (hf : isFull t k = false) :
    (computedStep t k).1.smoothed = k.smoothed ∧ (computedStep t k).1.excess = k.excess ∧
      (computedStep t k).1.joltCount = k.joltCount := by
  rw [computedStep_of_absolute hf]
  simp only [markDecided_smoothed, markDecided_excess, markDecided_joltCount]
  exact ⟨rfl, rfl, rfl⟩

theorem not_isBlanked (h : t.blank = 0) : isBlanked t k = false := by simp [isBlanked, h]

theorem isBlanked_of_full (hf : isFull t k = true) (h : 0 < t.blank) : isBlanked t k = true :=
  (isBlanked_iff t k).mpr ⟨h, ((isFull_iff t k).mp hf).2.1⟩

end

/-- Settles O30: the fields that both regimes share, then S, A and the jolt count of each. -/
theorem fullStepArithmetic : Obligations.FullStepArithmetic := by
  intro t k pc next
  obtain ⟨sm, a, j, d, hcommon⟩ := computedStep_common t k
  have hnext : next = { commonStep t pc k with smoothed := sm, excess := a, joltCount := j, decided := d } := hcommon
  refine ⟨isBlanked_iff t k, isFull_iff t k, ?_⟩
  refine ⟨by rw [hnext]; rfl, by rw [hnext]; rfl, by rw [hnext]; rfl, by rw [hnext]; rfl, ?runUp, ?blank,
    by rw [hnext]; rfl, ?uncounted, ?counted, computedStep_of_absolute_fields, ?full⟩
  case runUp => rw [hnext]; exact commonStep_runUp t k pc
  case blank => intro hr hb; rw [hnext]; exact commonStep_blank t k pc hr hb
  case uncounted => intro h; rw [hnext]; exact commonStep_bands_uncounted t k pc h
  case counted =>
    intro lt b ht hr hb hband
    have hbands : next.bands = countBand k.bands b.val pc := by
      rw [hnext, hband]
      exact commonStep_bands_counted t k pc ht hr hb
    rw [hbands]
    exact countBand_spec pc k.bands b
  case full =>
    intro z ref hf hz href _ l l' S lim
    obtain ⟨hsm, hex, hj⟩ := computedStep_of_full_fields hf
    have hS : (fullStep t (compensated t k) ((reference t.cal t.record.pos).getD 0) k).smoothed = S := by
      simp only [fullStep, href, Option.getD_some, limitedFigure_eq]
      rfl
    have hexcess : next.excess = excessAfter (some z.kind) (isBlanked t k) k.excess S lim := by
      rw [← hS]
      refine hex.trans ?_
      simp only [fullStep, hz, Option.map_some, Option.getD_some]
      rfl
    refine ⟨hsm.trans hS, ?_, fun hk hb hs => ?_, fun hk hb hs => ?_, fun hk hb => ?_, fun hk => ?_, fun hk => ?_⟩
    · refine hj.trans ?_
      simp only [fullStep, href, Option.getD_some]
      rfl
    · rw [hexcess, hk, not_isBlanked hb]
      exact accumulate_above hs
    · rw [hexcess, hk, not_isBlanked hb]
      exact accumulate_below hs
    · rw [hexcess, hk, isBlanked_of_full hf hb]
      rfl
    · rw [hexcess, hk]; rfl
    · rw [hexcess, hk]; rfl

end Sys2Proof.Machine
end

section
/-! Marks that are dropped and nothing else: STOP RELEASE, LOCKOUT CLEAR and ACK REVERSAL, a client's lapse, FORGET;
and the window, the sector and STSEL with the outputs they move. -/

namespace Sys2Proof.Machine

/-! ## The same change on a list of channels -/

theorem OnlyParts.of_onlyLinks {s t : State} (h : OnlyLinks s t) : OnlyParts s t := by
  unfold OnlyLinks at h
  unfold OnlyParts
  rw [h]

/-- A change of one channel, made on each channel of a list. -/
theorem foldl_updChan (f : Channel → Channel) {l : List Chan} (hn : l.Nodup) (s : State) :
    l.foldl (fun u c => updChan c f u) s = { s with chans := (l.foldl (fun u c => updChan c f u) s).chans } ∧
    ∀ d, (l.foldl (fun u c => updChan c f u) s).ch d = if d ∈ l then f (s.ch d) else s.ch d := by
  obtain ⟨hframe, hout, hin⟩ := foldl_local (f := fun u c => updChan c f u) (I := fun u => u = { s with chans := u.chans })
    (P := fun _ k k' => k' = f k) (s := s) (fun {u} c (h : u = { s with chans := u.chans }) => by rw [h]; rfl)
    (fun c _ => onlyChannel_updChan c f _) (fun c _ => ch_updChan_self c f _) hn rfl
  refine ⟨hframe, fun d => ?_⟩
  split
  · next h => exact hin d h
  · next h => exact hout d h

theorem mem_maskChans {m : BitVec 8} {c : Chan} : c ∈ maskChans m ↔ inMask m c = true := by
  simp [maskChans, mem_allChans]

theorem maskChans_nodup (m : BitVec 8) : (maskChans m).Nodup := allChans_nodup.filter _

theorem hasClient_dropClient : ∀ (m : BitVec 4) (x : Client), hasClient (dropClient m x) x = false := by decide

/-! ## STOP RELEASE, ACK REVERSAL and LOCKOUT CLEAR (R126, R129, R133) -/

section
variable {s : State} {x : Client} {p : BitVec 4} {c : Chan}

theorem not_inFault (h : (s.ch c).moc.motion ≠ .fault) : s.inFault c = false := decide_eq_false h

theorem stopReleaseRequest_eq (hr : s.ready = true) (hp : chanOf p = some c) (hf : (s.ch c).moc.motion ≠ .fault) :
    stopReleaseRequest x p 0 0 s =
      ⟨.done, natWord (clientCount (dropClient (s.ch c).auth.claims x)), releaseClaim x s c⟩ := by
  simp [stopReleaseRequest, isPanel15_of_chanOf hp, hp, not_inFault hf, hr]

theorem ackReversalRequest_eq (hr : s.ready = true) (hp : chanOf p = some c) (hf : (s.ch c).moc.motion ≠ .fault)
    (hpop : s.populated c = true) :
    ackReversalRequest x p 0 0 s = ⟨.done, natWord (bit (s.latched c)), ackChannel s c⟩ := by
  simp [ackReversalRequest, isPanel15_of_chanOf hp, hp, not_inFault hf, hr, hpop, firstFailing, failsIf]

theorem lockoutClearRequest_eq {a : Word} {mask : BitVec 8} (hr : s.ready = true) (ha : panelMask a = some mask) :
    lockoutClearRequest x 15 0 a s =
      ⟨.done, maskWord (((maskChans mask).foldl (unlockChannel x) s).lockoutMask x),
        (maskChans mask).foldl (unlockChannel x) s⟩ := by
  simp [lockoutClearRequest, ha, isPanel15, hr, firstFailing, failsIf]

theorem natWord_bit (b : Bool) : natWord (bit b) = if b then 1 else 0 := by cases b <;> rfl

end

/-- Settles O45: each request is one change of its mark, on one channel or along the mask. -/
theorem releasesChangeOneMark : Obligations.ReleasesChangeOneMark := by
  intro s x p c a mask ha hr
  have hr' : (received x s).ready = true := hr
  refine ⟨fun hp hf => ?release, fun hp hf hpop => ?ack, fun hm => ?clear⟩
  case release => exact serve_routed_of_settled hr (stopReleaseRequest_eq hr' hp hf) ha
  case ack =>
    rw [← natWord_bit]
    exact serve_routed_of_settled hr (ackReversalRequest_eq hr' hp hf hpop) ha
  case clear =>
    obtain ⟨hframe, hch⟩ := foldl_updChan
      (fun k => { k with auth := { k.auth with lockouts := dropClient k.auth.lockouts x } }) (maskChans_nodup mask)
      (received x s)
    obtain ⟨u, hu⟩ : ∃ u, (maskChans mask).foldl (unlockChannel x) (received x s) = u := ⟨_, rfl⟩
    have hframe' : u = { received x s with chans := u.chans } := hu ▸ hframe
    have hlock (d : Chan) : u.ch d = { s.ch d with
        auth := { (s.ch d).auth with
          lockouts := if inMask mask d then dropClient (s.ch d).auth.lockouts x else (s.ch d).auth.lockouts } } := by
      rw [← hu]
      refine (hch d).trans ?_
      simp only [mem_maskChans, ch_received]
      split <;> rfl
    have hserve := serve_routed_of_settled hr (lockoutClearRequest_eq (x := x) hr' hm)
      (by rw [hu, hframe']; exact ha)
    rw [hu] at hserve
    have hparts : OnlyParts s u := (OnlyParts.of_onlyLinks (onlyLinks_received x s)).trans (by
      unfold OnlyParts
      rw [hframe'])
    refine ⟨_, hserve, hparts.trans (.of_onlyLinks (onlyLinks_setReply ..)), ?_, fun d hd => ?_, hlock, ?_⟩
    · rw [reply_setReply]
    · rw [ch_setReply, hlock, hd]
      exact hasClient_dropClient ..
    · rw [reply_setReply]
      rfl

/-! ## A client's lapse (R134, R135) -/

section
variable {s : State} {x : Client}

theorem lapseDue_iff : s.lapseDue x = true ↔ (s.link x).lapsed = false ∧ (s.link x).lastFrame + 1000000 ≤ s.clock.now := by
  simp [State.lapseDue]

theorem exec_lapse (h : s.lapseDue x = true) (ha : (lapse x s).agenda = []) :
    exec (.lapseTimerExpiry x) s = .next (lapse x s) := by
  show Host.Outcome.next (settle (if s.lapseDue x then lapse x s else s)) = _
  rw [if_pos h, settle_of_nil ha]

/-- R135: the channels after a lapse, before CLIENT_LAPSE is posted. -/
def lapsedChannels (x : Client) (s : State) : State :=
  allChans.foldl (lapseChannel x) (updLink x (fun l => { l with lapsed := true }) s)

theorem lapsedChannels_spec : ∃ v, lapsedChannels x s = { updLink x (fun l => { l with lapsed := true }) s with chans := v } ∧
    ∀ c, (lapsedChannels x s).ch c = { s.ch c with auth := { (s.ch c).auth with
      claims := dropClient (s.ch c).auth.claims x, lockouts := dropClient (s.ch c).auth.lockouts x } } := by
  obtain ⟨hframe, hch⟩ := foldl_updChan
    (fun k => { k with auth := { k.auth with
      claims := dropClient k.auth.claims x, lockouts := dropClient k.auth.lockouts x } }) allChans_nodup
    (updLink x (fun l => { l with lapsed := true }) s)
  refine ⟨_, hframe, fun c => (hch c).trans ?_⟩
  rw [if_pos (mem_allChans c)]
  rfl

theorem lapse_eq : lapse x s = post .clientLapse none 0 (natWord x.val)
    (if s.staging.owner = some x then discardStaging (lapsedChannels x s) else lapsedChannels x s) := by
  obtain ⟨v, hv, -⟩ := lapsedChannels_spec (s := s) (x := x)
  have hstaging : (lapsedChannels x s).staging = s.staging := by rw [hv]; rfl
  rw [← hstaging]
  rfl

theorem ownLapse_self : OwnLapse x .clientLapse (natWord x.val) := ⟨rfl, rfl⟩

theorem not_ownLapse_of_ne {x y : Client} (h : y ≠ x) : ¬ OwnLapse y .clientLapse (natWord x.val) := by
  revert x y
  unfold OwnLapse
  decide

end

/-- Settles O48: the channels, the staging buffer and the event, one after the other. -/
theorem lapseDropsWhatTheClientHeld : Obligations.LapseDropsWhatTheClientHeld := by
  intro s x ha hl hd
  obtain ⟨v, hv, hch⟩ := lapsedChannels_spec (s := s) (x := x)
  obtain ⟨u, hu⟩ : ∃ u, (if s.staging.owner = some x then discardStaging (lapsedChannels x s)
    else lapsedChannels x s) = u := ⟨_, rfl⟩
  have hframe : u = { s with
      chans := v, links := (updLink x (fun l => { l with lapsed := true }) s).links
      staging := if s.staging.owner = some x then emptyStaging else s.staging } := by
    rw [← hu, hv]
    split <;> rfl
  have huch (c : Chan) : u.ch c = (lapsedChannels x s).ch c := by
    rw [← hu]
    split <;> rfl
  have hlink (y : Client) : u.link y = (updLink x (fun l => { l with lapsed := true }) s).link y := by rw [hframe]; rfl
  have hlapse : lapse x s = post .clientLapse none 0 (natWord x.val) u := by rw [lapse_eq, hu]
  have hpost := onlyLinks_post .clientLapse none 0 (natWord x.val) u
  refine ⟨lapse x s, exec_lapse (lapseDue_iff.mpr ⟨hl, hd⟩) ?_, ?_, fun c => ?_, ?_, fun ho => ?_, fun ho => ?_, fun y hy hm => ?_⟩
  · rw [hlapse, post_agenda, hframe]
    exact ha
  · rw [hlapse, hpost, hframe]
  · rw [hlapse, ch_post, huch, hch]
  · rw [hlapse, link_post_none_of_not_selects (.inr ownLapse_self), hlink, link_updLink_self]
  · rw [hlapse, post_staging, hframe]
    exact if_pos ho
  · rw [hlapse, post_staging, hframe]
    exact if_neg ho
  · rw [hlapse]
    refine holds_post_none ?_ (not_ownLapse_of_ne hy)
    rw [hlink, link_updLink_ne (Ne.symm hy)]
    exact hm

end Sys2Proof.Machine
end

section
/-! FORGET (R159); the override window, the sector and STSEL, with the lines and outputs (R80, R130, R183, R184);
and the order in which a MOVE is refused (R117). -/

namespace Sys2Proof.Machine

/-! ## FORGET (R159) -/

section
variable {s : State} {x : Client} {p : BitVec 4} {c : Chan}

theorem forgetRequest_eq (hr : s.ready = true) (hl : s.calLoaded = true) (he : s.erasing = false)
    (hp : chanOf p = some c) (hpop : s.populated c = true) (hmay : s.mayAct x c = true)
    (hcal : s.hasRight x .calibrate = true) (hm : (s.ch c).moc.motion = .idle) :
    forgetRequest x p 0 s = ⟨.done, natWord (bit (s.ch c).cal.travel.isSome), forgetChannel c s⟩ := by
  simp [forgetRequest, hp, hpop, hmay, hcal, hr, hl, he, hm, firstFailing, failsIf]

/-- R159: the record of a channel that forgets its travel. -/
def CalRecord.forgotten (r : CalRecord) : CalRecord :=
  ({ r with travel := none, profile := none, adaptations := 0 } : CalRecord).markChanged

/-- R159, R155: the travel is dropped, and a level that rests on it falls to CLOSED_KNOWN. -/
theorem forgetChannel_spec (h : (s.ch c).cal.travel.isSome = true) :
    (forgetChannel c s).ch c = { s.ch c with
      cal := (s.ch c).cal.forgotten
      level := if levelCode .endsKnown ≤ levelCode (s.ch c).level then .closedKnown else (s.ch c).level } ∧
    OnlyChannel c s (forgetChannel c s) ∧ SameDevice s (forgetChannel c s) ∧
    (forgetChannel c s).agenda = s.agenda := by
  have hself : (updCal c CalRecord.forgotten s).ch c = { s.ch c with cal := (s.ch c).cal.forgotten } := ch_updCal_self ..
  have honly : OnlyChannel c s (updCal c CalRecord.forgotten s) := onlyChannel_updChan c _ s
  have hsame : SameDevice s (updCal c CalRecord.forgotten s) := sameDevice_updChan c _ s
  by_cases hle : levelCode .endsKnown ≤ levelCode (s.ch c).level
  · have hf : forgetChannel c s = setLevel c .closedKnown ((updCal c CalRecord.forgotten s).ch c).hif.pos
        (updCal c CalRecord.forgotten s) := by
      rw [forgetChannel, if_pos h]
      refine if_pos ?_
      rw [ch_updCal_self]
      exact hle
    obtain ⟨hch, ho, hs, ha, -⟩ := setLevel_spec c .closedKnown ((updCal c CalRecord.forgotten s).ch c).hif.pos
      (updCal c CalRecord.forgotten s)
    rw [hf, if_pos hle]
    exact ⟨by rw [hch, hself], honly.trans ho, hsame.trans hs, ha⟩
  · have hf : forgetChannel c s = updCal c CalRecord.forgotten s := by
      rw [forgetChannel, if_pos h]
      refine if_neg ?_
      rw [ch_updCal_self]
      exact hle
    rw [hf, if_neg hle]
    exact ⟨hself, honly, hsame, rfl⟩

end

/-- Settles O52: the request is answered with the channel's own change. -/
theorem forgetDropsTheTravel : Obligations.ForgetDropsTheTravel := by
  intro s x p c lt ha hr hl he hp hpop hmay hcal hm ht
  obtain ⟨hch, honly, hsame, hagenda⟩ := forgetChannel_spec (s := received x s) (c := c) (by simp [ht])
  have hanswer := forgetRequest_eq (s := received x s) (x := x) hr hl he hp hpop hmay hcal hm
  rw [ch_received, ht] at hanswer
  have hlevel : ((forgetChannel c (received x s)).ch c).level =
      if levelCode .endsKnown ≤ levelCode (s.ch c).level then .closedKnown else (s.ch c).level := by rw [hch]; rfl
  refine ⟨_, serve_routed_of_settled hr hanswer (hagenda.trans ha), replies_setReply .., ?_, ?_, ?_, fun h => ?_, fun h => ?_,
    ?_, ?_⟩
  · exact ((onlyLinks_received x s).onlyChannel c).trans (honly.trans ((onlyLinks_setReply ..).onlyChannel c))
  · exact (onlyLinks_received x s).sameDevice.trans (hsame.trans (onlyLinks_setReply ..).sameDevice)
  · rw [ch_setReply, hch]; rfl
  · rw [ch_setReply, hlevel]
    rcases h with h | h <;> rw [h] <;> rfl
  · rw [ch_setReply, hlevel]
    rcases h with h | h <;> rw [h] <;> rfl
  · rw [ch_setReply, hch]; rfl
  · rw [ch_setReply, hch]; rfl

/-! ## The window, the sector, STSEL, and the lines (R80, R130, R183, R184) -/

section
variable {s : State} {c : Chan}

theorem exec_overrideWindowExpiry (ha : s.agenda = []) {d : Nat} (hw : (s.ch c).auth.window = some d) (hd : d ≤ s.clock.now) :
    exec (.overrideWindowExpiry c) s = .next (clearOverride c s) := by
  show finish (if due (s.ch c).auth.window s.clock.now then clearOverride c s else s) = _
  rw [if_pos (by simp [due, hw, hd]), finish_eq, settle_of_nil]
  exact ha

theorem exec_sectorSwitch (ha : s.agenda = []) (h : s.sectorDue = true) : exec .sectorSwitch s = .next { s with stb :=
    { s.stb with sectorOne := !s.stb.sectorOne, since := s.stb.since + 1000 } } := by
  show finish (if s.sectorDue then _ else s) = _
  rw [if_pos h, finish_eq, settle_of_nil]
  exact ha

theorem exec_stselChange (ha : s.agenda = []) (b : Bool) :
    exec (.stselChange b) s = .next { s with pins := { s.pins with stsel := b } } := by
  show finish _ = _
  rw [finish_eq, settle_of_nil]
  exact ha

/-- R184: the sector that is shown, by the mode. -/
theorem showsAttention_eq_false : s.showsAttention = false ↔
    s.stb.mode = .polled ∧ s.stb.sectorOne = false ∨ s.stb.mode = .direct ∧ s.pins.stsel = false := by
  cases hm : s.stb.mode <;> simp [State.showsAttention, hm]

theorem stsync_iff (hr : s.ready = true) : s.stsync = true ↔ s.showsAttention = false := by simp [State.stsync, hr]

theorem statusLine_of_not_ready (hr : s.ready = false) : s.statusLine c = false := by simp [State.statusLine, hr]

theorem statusLine_of_unpopulated (h : s.populated c = false) : s.statusLine c = false := by simp [State.statusLine, h]

theorem statusLine_closed (hr : s.ready = true) (hp : s.populated c = true) (h : s.showsAttention = false) :
    s.statusLine c = true ↔ (s.ch c).moc.motion = .idle ∧ (s.ch c).hif.posValid = true ∧ (s.ch c).hif.pos ≤ 24 := by
  simp [State.statusLine, hr, hp, h, State.closedFlag, and_assoc]

theorem statusLine_attention (hr : s.ready = true) (hp : s.populated c = true) (h : ¬ s.showsAttention = false) :
    s.statusLine c = true ↔ (s.ch c).moc.latched = true ∨ (s.ch c).moc.motion = .fault := by
  simp [State.statusLine, hr, hp, h, State.attentionFlag]

/-- R80: the level of an output whose drive is on. -/
def Polarity.active (p : Polarity) : PinLevel := if p = .activeHigh then .high else .low
/-- R80: the level of an output whose drive is off. -/
def Polarity.inactive (p : Polarity) : PinLevel := if p = .activeHigh then .low else .high

theorem driveOutput_of_not_ready (hr : s.ready = false) (d : Dir) : s.driveOutput c d = .highImpedance := by
  simp [State.driveOutput, hr]

theorem driveOutput_of_ready (hr : s.ready = true) (d : Dir) : s.driveOutput c d =
    if (s.ch c).moc.motion.drive = some d then (s.ch c).cal.polarity.active else (s.ch c).cal.polarity.inactive := by
  cases hp : (s.ch c).cal.polarity <;> by_cases hd : (s.ch c).moc.motion.drive = some d <;>
    simp [State.driveOutput, hr, outputLevel, Polarity.active, Polarity.inactive, hp, hd]

theorem Polarity.inactive_ne_active (p : Polarity) : p.inactive ≠ p.active := by cases p <;> decide
theorem Polarity.highImpedance_ne_active (p : Polarity) : .highImpedance ≠ p.active := by cases p <;> decide

/-- R80: the two outputs of a channel are never both active. -/
theorem not_both_active : ¬ (s.driveOutput c .closing = (s.ch c).cal.polarity.active ∧
    s.driveOutput c .opening = (s.ch c).cal.polarity.active) := by
  rintro ⟨hclose, hopen⟩
  cases hr : s.ready with
  | false =>
    rw [driveOutput_of_not_ready hr] at hclose
    exact Polarity.highImpedance_ne_active _ hclose
  | true =>
    rw [driveOutput_of_ready hr] at hclose hopen
    have hc : (s.ch c).moc.motion.drive = some .closing := by
      by_contra h
      rw [if_neg h] at hclose
      exact Polarity.inactive_ne_active _ hclose
    rw [hc, if_neg (by decide)] at hopen
    exact Polarity.inactive_ne_active _ hopen

end

/-- Settles O38: the three commands, then the lines by sector and the outputs by drive. -/
theorem windowSectorAndStsel : Obligations.WindowSectorAndStsel := by
  intro s c b ha
  refine ⟨fun d => exec_overrideWindowExpiry ha, fun hr hm hd => exec_sectorSwitch ha (by simp [State.sectorDue, hr, hm, hd]),
    exec_stselChange ha b, fun hr => ⟨by simp [State.stsync, hr], statusLine_of_not_ready hr⟩, statusLine_of_unpopulated, ?lines,
    ⟨driveOutput_of_not_ready, fun hr d => ?_, not_both_active⟩, fun x => by simp [State.attentionLow, State.attn]⟩
  case lines =>
    intro zero hr
    have hzero : zero ↔ s.showsAttention = false := showsAttention_eq_false.symm
    exact ⟨(stsync_iff hr).trans hzero.symm, fun hp => ⟨fun hz => statusLine_closed hr hp (hzero.mp hz),
      fun hz => statusLine_attention hr hp (hzero.not.mp hz)⟩⟩
  · rw [driveOutput_of_ready hr]
    cases (s.ch c).moc.motion <;> cases d <;> rfl

/-! ## The order of R117 -/

section
variable {s : State} {x : Client} {p m : BitVec 4} {a : Word} {c : Chan} {d : Dir} {md : Mode} {org : Origin} {tgt : Target}

theorem moveRequest_eq (hp : chanOf p = some c) (hm : moveModifier m = some (d, md, org)) (ha : targetOf a = some tgt)
    (hpop : s.populated c = true) : moveRequest x p m a s = judgeMove x c d md org tgt s := by
  simp [moveRequest, hp, hm, ha, hpop]

theorem judgeMove_not_permitted (h : ¬ (s.mayAct x c = true ∧ s.hasRight x .move = true)) :
    judgeMove x c d md org tgt s = refuse .notPermitted s := by
  refine if_pos ?_
  rw [← Bool.not_and, Bool.not_eq_true', ← Bool.not_eq_true, Bool.and_eq_true]
  exact h

theorem judgeMove_of_refusal (h : s.mayAct x c = true ∧ s.hasRight x .move = true) {r : Result}
    (hr : s.refusalBeforeBusy x c d md org = some r) : judgeMove x c d md org tgt s = refuse r s := by
  simp [judgeMove, h.1, h.2, hr]

/-- R117, R121: past checks 2 to 8 a MOVE is a refresh, BUSY, or admitted. -/
theorem judgeMove_of_passes (h : s.mayAct x c = true ∧ s.hasRight x .move = true)
    (hr : s.refusalBeforeBusy x c d md org = none) : judgeMove x c d md org tgt s =
      if s.isRefresh x c d md then
        ⟨.accepted, ((s.ch c).moc.order.map fun o => targetWord o.target).getD 0, refreshOrder c s⟩
      else if s.busyFor x c d then refuse .busy s
      else ⟨.accepted, targetWord (s.normalized c (s.moveOrder x c d md org tgt)).target,
        handOver c (s.moveOrder x c d md org tgt) (noteOverride c (s.moveOrder x c d md org tgt).k s)⟩ := by
  simp [judgeMove, h.1, h.2, hr]

theorem refusalBeforeBusy_of_some {r : Result} (hb : r ≠ .busy) (hr : s.refusal x c d md org = some r) :
    s.refusalBeforeBusy x c d md org = some r := by
  unfold State.refusalBeforeBusy
  rw [hr]
  cases r
  case busy => exact absurd rfl hb
  all_goals rfl

theorem refusalBeforeBusy_of_busy (hr : s.refusal x c d md org = some .busy) :
    s.refusalBeforeBusy x c d md org = none := by
  unfold State.refusalBeforeBusy
  rw [hr]

theorem refusalBeforeBusy_of_none (hr : s.refusal x c d md org = none) : s.refusalBeforeBusy x c d md org = none := by
  unfold State.refusalBeforeBusy
  rw [hr]

theorem judgeMove_refused (h : s.mayAct x c = true ∧ s.hasRight x .move = true) {r : Result} (hb : r ≠ .busy)
    (hr : s.refusal x c d md org = some r) : judgeMove x c d md org tgt s = refuse r s :=
  judgeMove_of_refusal h (refusalBeforeBusy_of_some hb hr)

theorem judgeMove_busy (h : s.mayAct x c = true ∧ s.hasRight x .move = true)
    (hr : s.refusal x c d md org = some .busy) (hn : s.isRefresh x c d md = false) (hb : s.busyFor x c d = true) :
    judgeMove x c d md org tgt s = refuse .busy s := by
  rw [judgeMove_of_passes h (refusalBeforeBusy_of_busy hr), hn, hb]
  rfl

/-- R118, by level: MANUAL at every level, AUTO opening with both ends known, AUTO closing when LEARNED. -/
theorem levelAllows_iff (l : Level) : levelAllows l d md = true ↔
    md = .manual ∨ l = .learned ∨ (d = .opening ∧ l = .endsKnown) := by
  cases md <;> cases d <;> simp [levelAllows, or_comm]

theorem lockedOut_iff : s.lockedOut x c = true ↔ ¬ dropClient (s.ch c).auth.lockouts x = 0 := decide_eq_true_iff

/-- R117, check 9: a request against a reversal, or a close against another client's held open, is no refresh. -/
theorem not_isRefresh_of_no_order (h : (s.ch c).moc.order = none) : s.isRefresh x c d md = false := by
  unfold State.isRefresh
  rw [h]
  split <;> simp_all

theorem not_isRefresh_of_other_client {o : Order} (h : (s.ch c).moc.order = some o) (ho : o.client ≠ x) :
    s.isRefresh x c d md = false := by
  unfold State.isRefresh
  rw [h]
  split
  · rfl
  · next heq _ => cases heq; simp [ho]
  · rfl

theorem busyFor_reversal (h : (s.ch c).moc.motion = .brakingPinch ∨ (s.ch c).moc.motion = .reversing) :
    s.busyFor x c .closing = true := by
  have hrev : s.inReversal c = true := by simpa [State.inReversal] using h
  simp [State.busyFor, hrev]

/-- R119: another client's MANUAL open whose refresh deadline has not passed. -/
theorem busyFor_heldOpen {o : Order} {deadline : Nat}
    (hm : (s.ch c).moc.motion = .queued ∨ (s.ch c).moc.motion = .brakingOrder ∨ (s.ch c).moc.motion = .opening)
    (ho : (s.ch c).moc.order = some o) (hd : o.dir = .opening) (hmd : o.mode = .manual) (hx : o.client ≠ x)
    (href : o.refresh = some deadline) (hnow : s.clock.now ≤ deadline) : s.busyFor x c .closing = true := by
  have hrev : s.inReversal c = false := by rcases hm with hm | hm | hm <;> simp [State.inReversal, hm]
  have hheld : o.heldOpen s.clock.now = true := by simp [Order.heldOpen, hd, hmd, href, hnow]
  rcases hm with hm | hm | hm <;> simp [State.busyFor, hrev, hm, ho, hheld, hx]

end

/-- Settles O39: the checks of R117 in their order, each clause carrying the passes before it. -/
theorem moveIsJudgedInOrder : Obligations.MoveIsJudgedInOrder := by
  intro s x p m a c d md org tgt ha hr hp hm hta hpop answer permitted free unclaimed fit known allowed supplied
  have hanswer {r : Result} (h : judgeMove x c d md org tgt (received x s) = refuse r (received x s)) : answer r :=
    serve_routed_of_answer ha hr ((moveRequest_eq (s := received x s) hp hm hta hpop).trans h)
  have hrefused {r : Result} (hpm : permitted) (hb : r ≠ .busy) (h : s.refusal x c d md org = some r) : answer r :=
    hanswer (judgeMove_refused (s := received x s) hpm hb h)
  have hlocked : free ↔ ¬ s.lockedOut x c = true := by rw [lockedOut_iff, not_not]
  have hclaimed : unclaimed ↔ ¬ (s.ch c).auth.claims ≠ 0 := not_not.symm
  have hunfit : fit ↔ ¬ ((s.ch c).moc.motion = .fault ∨ s.calLoaded = false ∨ s.erasing = true) := by simp [fit]
  have hlevel : known ↔ ¬ (!levelAllows (s.ch c).level d md) = true := by
    rw [Bool.not_eq_true', Bool.not_eq_false, levelAllows_iff]
  have hinhibit : allowed ↔ ¬ (d = .closing ∧ org = .remoteReq ∧ (s.ch c).auth.inhibit = true) := by
    cases d <;> cases org <;> simp [allowed]
  have hsupply : supplied ↔ ¬ ((s.ch c).moc.motion = .idle ∧ s.sup.state ≠ .normal) := by
    simp [supplied, or_iff_not_imp_left]
  have hbusy (hpm : permitted) (h1 : free) (h2 : unclaimed) (h3 : fit) (h4 : known) (h5 : allowed) (h6 : supplied)
      (hn : s.isRefresh x c d md = false) (hb : s.busyFor x c d = true) : answer .busy :=
    hanswer (judgeMove_busy (s := received x s) hpm
      ((if_neg (hlocked.mp h1)).trans ((if_neg (hclaimed.mp h2)).trans ((if_neg (hunfit.mp h3)).trans
        ((if_neg (hlevel.mp h4)).trans ((if_neg (hinhibit.mp h5)).trans ((if_neg (hsupply.mp h6)).trans (if_pos hb))))))) hn hb)
  refine ⟨fun h => hanswer (judgeMove_not_permitted h), fun hpm h1 => hrefused hpm (by decide) (if_pos ?_),
    fun hpm h1 h2 => hrefused hpm (by decide) ((if_neg (hlocked.mp h1)).trans (if_pos ?_)),
    fun hpm h1 h2 h3 => hrefused hpm (by decide)
      ((if_neg (hlocked.mp h1)).trans ((if_neg (hclaimed.mp h2)).trans (if_pos ?_))),
    fun hpm h1 h2 h3 h4 => hrefused hpm (by decide) ((if_neg (hlocked.mp h1)).trans ((if_neg (hclaimed.mp h2)).trans
      ((if_neg (hunfit.mp h3)).trans (if_pos ?_)))),
    fun hpm h1 h2 h3 h4 h5 => hrefused hpm (by decide) ((if_neg (hlocked.mp h1)).trans ((if_neg (hclaimed.mp h2)).trans
      ((if_neg (hunfit.mp h3)).trans ((if_neg (hlevel.mp h4)).trans (if_pos ?_))))),
    fun hpm h1 h2 h3 h4 h5 h6 => hrefused hpm (by decide) ((if_neg (hlocked.mp h1)).trans ((if_neg (hclaimed.mp h2)).trans
      ((if_neg (hunfit.mp h3)).trans ((if_neg (hlevel.mp h4)).trans ((if_neg (hinhibit.mp h5)).trans (if_pos ?_)))))),
    fun hpm h1 h2 h3 h4 h5 h6 hd hrev ho => ?_, fun o dl hpm h1 h2 h3 h4 h5 h6 hd hmo ho hod hom hox href hnow => ?_⟩
  · exact not_not.mp (hlocked.not.mp h1)
  · exact not_not.mp (hclaimed.not.mp h2)
  · exact not_not.mp (hunfit.not.mp h3)
  · exact not_not.mp (hlevel.not.mp h4)
  · exact not_not.mp (hinhibit.not.mp h5)
  · exact not_not.mp (hsupply.not.mp h6)
  · exact hbusy hpm h1 h2 h3 h4 h5 h6 (not_isRefresh_of_no_order ho) (hd ▸ busyFor_reversal hrev)
  · exact hbusy hpm h1 h2 h3 h4 h5 h6 (not_isRefresh_of_other_client ho hox)
      (hd ▸ busyFor_heldOpen hmo ho hod hom hox href hnow)

end Sys2Proof.Machine
end

section
/-! The ZONE requests for the owner on the bound channel (R65 to R70), the checks ahead of them (R64), and the lists
that a COMMIT takes (R69). -/

namespace Sys2Proof.Machine

/-! ## The rules of the owner (R65 to R70) -/

section
variable {s : State} {x : Client} {c : Chan}

theorem zonePutStart_of_owns {start : Nat} (h : s.ownsStaging x c = true) (hs : start ≤ 4063)
    (hl : s.staging.records.length < 6) : zonePutStart x start c s =
      ⟨.done, natWord (s.staging.records.length + 1),
        { s with staging := { s.staging with records := s.staging.records ++ [newZone s.staging.records start] } }⟩ :=
  if_neg (by simp [h]; omega)

theorem zonePutStart_refused {start : Nat} (h : 4063 < start ∨ 6 ≤ s.staging.records.length) :
    zonePutStart x start c s = refuse .badArgument s := if_pos (.inr h)

/-- R67: the record that PUT START appends. -/
theorem newZone_eq (l : List Zone) (n : Nat) : newZone l n =
    match l.getLast? with
    | some z => ⟨n, z.kind, z.t, z.e, z.h⟩
    | none => ⟨n, .guard, 80, 600, 400⟩ := by
  unfold newZone
  cases l.getLast? <;> rfl

theorem zonePutField_of_put (h : s.ownsStaging x c = true) {init : List Zone} {z z' : Zone} {n : Nat} {a : Word}
    (hr : s.staging.records = init ++ [z]) (hz : z.put n a = some z') : zonePutField x n a c s =
      ⟨.done, a, { s with staging := { s.staging with records := init ++ [z'] } }⟩ := by
  simp [zonePutField, h, hr, hz]

theorem zonePutField_of_bad_kind {init : List Zone} {z : Zone} {a : Word}
    (hr : s.staging.records = init ++ [z]) (ha : 2 < a.toNat) : zonePutField x 0 a c s = refuse .badArgument s := by
  have hk : zoneKindOf a = none := by
    obtain ⟨n, hn⟩ : ∃ n, a.toNat = n + 3 := ⟨a.toNat - 3, by omega⟩
    simp [zoneKindOf, hn]
  simp [zonePutField, hr, Zone.put, hk]

theorem zonePutField_of_empty {n : Nat} {a : Word} (hr : s.staging.records = []) :
    zonePutField x n a c s = refuse .badArgument s := by simp [zonePutField, hr]

theorem zoneCommit_of_valid (h : s.ownsStaging x c = true) (hv : zonesValid s.staging.records = true) :
    zoneCommit x c s = ⟨.done, natWord s.staging.records.length,
      { updCal c (fun k => ({ k with zones := s.staging.records }).markChanged) s with staging := emptyStaging }⟩ :=
  if_pos (by simp [h, hv])

theorem zoneCommit_of_invalid (hv : zonesValid s.staging.records = false) : zoneCommit x c s = refuse .badArgument s :=
  if_neg (by simp [hv])

theorem zoneAbandon_of_owns (h : s.ownsStaging x c = true) :
    zoneAbandon x c s = ⟨.done, 0, { s with staging := emptyStaging }⟩ := by
  have howned : s.staging.owner ≠ none := by simp [(ownsStaging_iff.mp h).1]
  rw [zoneAbandon, if_neg howned, if_pos h]

/-! ## The checks ahead (R64) -/

variable {p : BitVec 4} {malformed : Bool} {body : Chan → State → Answer}

theorem zoneRefusal_malformed (hm : malformed = true) : s.zoneRefusal x c malformed = some .badArgument := by
  simp [State.zoneRefusal, firstFailing, failsIf, hm]

theorem zoneRefusal_unpopulated (h : (s.ch c).cal.populated = false) :
    s.zoneRefusal x c malformed = some .badArgument := by
  simp [State.zoneRefusal, State.populated, firstFailing, failsIf, h]

theorem serve_zone_no_channel (ha : s.agenda = []) (hr : s.ready = true) (hp : chanOf p = none) :
    serve x (routed (zoneRequest x p malformed body)) s = .next (setReply x .badArgument 0 (received x s)) :=
  serve_routed_of_answer ha hr (by simp only [zoneRequest, hp]; rfl)

theorem serve_zone_refused (ha : s.agenda = []) (hr : s.ready = true) (hp : chanOf p = some c) {r : Result}
    (hz : s.zoneRefusal x c malformed = some r) :
    serve x (routed (zoneRequest x p malformed body)) s = .next (setReply x r 0 (received x s)) :=
  serve_routed_of_answer ha hr (by simp only [zoneRequest, hp, zoneRefusal_received, hz]; rfl)

/-- R64, check 1: a malformed request names no channel, an unpopulated one, or is refused as malformed. -/
theorem serve_zone_malformed (ha : s.agenda = []) (hr : s.ready = true) (hm : malformed = true) :
    serve x (routed (zoneRequest x p malformed body)) s = .next (setReply x .badArgument 0 (received x s)) := by
  cases hp : chanOf p with
  | none => exact serve_zone_no_channel ha hr hp
  | some c => exact serve_zone_refused ha hr hp (zoneRefusal_malformed hm)

variable (hpop : (s.ch c).cal.populated = true)
include hpop

theorem zoneRefusal_no_right (h : s.hasRight x .calibrate = false) : s.zoneRefusal x c false = some .notPermitted := by
  simp [State.zoneRefusal, State.populated, State.rightRefusal, firstFailing, failsIf, hpop, h]

variable (hright : s.hasRight x .calibrate = true)
include hright

theorem zoneRefusal_locked (h : s.glob.locked = true) : s.zoneRefusal x c false = some .calLocked := by
  simp [State.zoneRefusal, State.populated, State.rightRefusal, State.calStateRefusal, firstFailing, failsIf, hpop, hright, h]

variable (hlock : s.glob.locked = false)
include hlock

theorem zoneRefusal_not_loaded (h : s.calLoaded = false ∨ s.erasing = true) : s.zoneRefusal x c false = some .notReady := by
  have h' : (!s.calLoaded || s.erasing) = true := by simpa using h
  simp [State.zoneRefusal, State.populated, State.rightRefusal, State.calStateRefusal, firstFailing, failsIf, hpop, hright,
    hlock, h']

theorem zoneRefusal_of_loaded (hl : s.calLoaded = true) (he : s.erasing = false) : s.zoneRefusal x c false =
    if s.staging.owner ≠ none ∧ s.staging.owner ≠ some x then some .busy else none := by
  by_cases h : s.staging.owner ≠ none ∧ s.staging.owner ≠ some x <;>
    simp [State.zoneRefusal, State.populated, State.rightRefusal, State.calStateRefusal, firstFailing, failsIf, hpop, hright,
      hlock, hl, he, h]

end

/-! ## The valid lists (R69) -/

theorem zonesValid_iff (zones : List Zone) : zonesValid zones = true ↔
    1 ≤ zones.length ∧ zones.length ≤ 6 ∧ (∀ z, zones.head? = some z → z.start = 0) ∧
    zones.Pairwise (fun a b => a.start < b.start) ∧
    ∀ z ∈ zones, 16 ≤ z.t ∧ z.t ≤ 2048 ∧ 64 ≤ z.e ∧ z.e ≤ 65535 ∧ 64 ≤ z.h ∧ z.h ≤ 4095 := by
  cases zones with
  | nil => simp [zonesValid]
  | cons z rest =>
    simp only [zonesValid, Bool.and_eq_true, decide_eq_true_eq, List.pairwise_map, List.all_eq_true, List.head?_cons,
      Option.map_some, beq_iff_eq, Option.some.injEq, forall_eq', and_assoc]

/-! ## The five requests together -/

/-- The five ZONE requests of client `x` are all refused with `r`. -/
def ZonesRefused (s : State) (x : Client) (p m : BitVec 4) (a : Word) (r : Result) : Prop :=
  exec (.zoneBegin x p 0 0) s = .next (setReply x r 0 (received x s)) ∧
  exec (.zonePutStart x p 0 a) s = .next (setReply x r 0 (received x s)) ∧
  (m.toNat < 4 → exec (.zonePutField x p m a) s = .next (setReply x r 0 (received x s))) ∧
  exec (.zoneCommit x p 0 0) s = .next (setReply x r 0 (received x s)) ∧
  exec (.zoneAbandon x p 0 0) s = .next (setReply x r 0 (received x s))

theorem zonesRefused {s : State} {x : Client} {p m : BitVec 4} {a : Word} {r : Result}
    (h : ∀ body malformed, malformed = false →
      serve x (routed (zoneRequest x p malformed body)) s = .next (setReply x r 0 (received x s))) :
    ZonesRefused s x p m a r :=
  ⟨h _ _ rfl, h _ _ rfl, fun hm => h _ _ (decide_eq_false (not_le.mpr hm)), h _ _ rfl, h _ _ rfl⟩

theorem zonesRefused_of_check {s : State} {x : Client} {p m : BitVec 4} {a : Word} {r : Result} {c : Chan} (ha : s.agenda = [])
    (hr : s.ready = true) (hp : chanOf p = some c) (hz : s.zoneRefusal x c false = some r) : ZonesRefused s x p m a r :=
  zonesRefused fun _ _ hm => serve_zone_refused ha hr hp (hm ▸ hz)

/-- Settles O56: each rule of the owner, the lists of R69, and the checks of R64 in their order. -/
theorem zoneRequestsBuildAndCommit : Obligations.ZoneRequestsBuildAndCommit := by
  refine ⟨fun s x p a c ha hr hp hz => ⟨?begins, fun ho hb => ?owned⟩, zonesValid_iff, fun s x p m a ha hr => ?checks⟩
  case begins =>
    have hserve : exec (.zoneBegin x p 0 0) s = serve x (zoneBegin x c) s := serve_zoneRequest hr hp hz rfl
    rw [hserve]
    exact serve_of_settled rfl ha
  case owned =>
    have howns : (received x s).ownsStaging x c = true := ownsStaging_iff.mpr ⟨ho, hb⟩
    refine ⟨fun hs hl => ?_, fun h => ?_, fun init z hrec => ?fields, fun hrec m => ?_, fun hv => ?_, fun hv => ?_, ?_⟩
    · rw [exec_zonePutStart hr hp hz]
      refine (serve_of_settled (zonePutStart_of_owns howns hs hl) ha).trans ?_
      rw [newZone_eq]
      rfl
    · rw [exec_zonePutStart hr hp hz]
      exact serve_of_answer ha (zonePutStart_refused h)
    case fields =>
      have hsets (n : BitVec 4) (hn : n.toNat < 4) (v : Word) {z' : Zone} (hput : z.put n.toNat v = some z') :
          exec (.zonePutField x p n v) s = .next (setReply x .done v
            { received x s with staging := { s.staging with records := init ++ [z'] } }) := by
        rw [exec_zonePutField hr hp hz hn]
        exact serve_of_settled (zonePutField_of_put howns hrec hput) ha
      refine ⟨hsets 0 (by decide) 0 rfl, hsets 0 (by decide) 1 rfl, hsets 0 (by decide) 2 rfl, hsets 1 (by decide) a rfl,
        hsets 2 (by decide) a rfl, hsets 3 (by decide) a rfl, fun hbad => ?_⟩
      rw [exec_zonePutField hr hp hz (by decide)]
      exact serve_of_answer ha (zonePutField_of_bad_kind hrec hbad)
    · by_cases hm : m.toNat < 4
      · rw [exec_zonePutField hr hp hz hm]
        exact serve_of_answer ha (zonePutField_of_empty hrec)
      · exact serve_zone_malformed ha hr (decide_eq_true (not_lt.mp hm))
    · rw [exec_zoneCommit hr hp hz]
      exact serve_of_settled (zoneCommit_of_valid howns hv) ha
    · rw [exec_zoneCommit hr hp hz]
      exact serve_of_answer ha (zoneCommit_of_invalid hv)
    · rw [exec_zoneAbandon hr hp hz]
      exact serve_of_settled (zoneAbandon_of_owns howns) ha
  case checks =>
    refine ⟨fun hp => zonesRefused fun _ _ _ => serve_zone_no_channel ha hr hp,
      fun hm => serve_zone_malformed ha hr (decide_eq_true hm), fun hm => serve_zone_malformed ha hr (decide_eq_true hm),
      fun hbad => ?_, fun c hp => ⟨fun hpop => zonesRefused_of_check ha hr hp (zoneRefusal_unpopulated hpop),
        fun hpop => ⟨fun hno => zonesRefused_of_check ha hr hp (zoneRefusal_no_right hpop hno), fun hright =>
          ⟨fun hlock => zonesRefused_of_check ha hr hp (zoneRefusal_locked hpop hright hlock), fun hlock =>
            ⟨fun hload => zonesRefused_of_check ha hr hp (zoneRefusal_not_loaded hpop hright hlock hload), fun hl he =>
              ⟨fun y hy hne => zonesRefused_of_check ha hr hp ?_, fun hown => ?_⟩⟩⟩⟩⟩⟩
    · have hmal : (decide (m ≠ 0) || decide (a ≠ 0)) = true := by simpa using hbad
      exact ⟨serve_zone_malformed ha hr hmal, serve_zone_malformed ha hr hmal, serve_zone_malformed ha hr hmal⟩
    · rw [zoneRefusal_of_loaded hpop hright hlock hl he, if_pos (by simp [hy, hne])]
    · rw [zoneRefusal_of_loaded hpop hright hlock hl he, if_neg (by rcases hown with h | h <;> simp [h])]

end Sys2Proof.Machine
end

section
/-! SET PARAMETER of a channel (R59, R61, R62, R74): the checks in their order, the field written, and the populated
flag. -/

namespace Sys2Proof.Machine

/-! ## What is left to be done, when it changes nothing -/

/-- Tasks that leave the state as it stands are done without a trace. -/
theorem settleN_of_inert {s : State} (h : ∀ t ∈ s.agenda, ∀ a, runTask t { s with agenda := a } = { s with agenda := a })
    (n : Nat) : settleN n s = { s with agenda := [] } := by
  induction n generalizing s with
  | zero => rfl
  | succ n ih =>
    unfold settleN
    split
    · next hnil => cases s; simp_all
    · next t ts hcons =>
      rw [h t (by simp [hcons])]
      exact ih (s := { s with agenda := ts }) fun u hu a => h u (by simp [hcons, hu]) a

/-- R152: with no channel WAITING a test of the held followers changes nothing. -/
theorem settle_of_followerTests {s : State} (hw : ∀ c, (s.ch c).moc.motion ≠ .waiting)
    (h : ∀ t ∈ s.agenda, ∃ c, t = .followerTest c) : settle s = { s with agenda := [] } := by
  refine settleN_of_inert (fun t ht a => ?_) 256
  obtain ⟨c, rfl⟩ := h t ht
  exact followerAfter_of_not_waiting (s := { s with agenda := a }) (hw c)

/-- R152: what an action leaves for the held followers. -/
def FollowerTests (s : State) : Prop := ∀ t ∈ s.agenda, ∃ c, t = .followerTest c

theorem FollowerTests.congr {s u : State} (h : FollowerTests s) (e : u.agenda = s.agenda) : FollowerTests u :=
  fun t ht => h t (e ▸ ht)

theorem followerTests_notifyFollower {s : State} (h : FollowerTests s) (c : Chan) : FollowerTests (notifyFollower c s) := by
  unfold notifyFollower
  split
  · next d _ =>
    intro t ht
    rcases List.mem_append.mp ht with ht | ht
    · exact h t ht
    · exact ⟨d, List.mem_singleton.mp ht⟩
  · exact h

theorem followerTests_applyPopulated {s : State} (h : FollowerTests s) (c : Chan) : FollowerTests (applyPopulated c s) := by
  change FollowerTests (notifyFollower c (updHif c (fun k => { k with pos := 0, posValid := false }) s))
  refine followerTests_notifyFollower (h.congr ?_) c
  rfl

theorem followerTests_testFollowers {s : State} (h : FollowerTests s) : FollowerTests (testFollowers s) := by
  unfold testFollowers
  generalize allChans = l
  induction l generalizing s with
  | nil => exact h
  | cons c l ih =>
    refine ih (fun t ht => ?_)
    rcases List.mem_append.mp ht with ht | ht
    · exact h t ht
    · exact ⟨c, List.mem_singleton.mp ht⟩

theorem testFollowers_eq (s : State) : testFollowers s = { s with agenda := (testFollowers s).agenda } := by
  unfold testFollowers
  generalize allChans = l
  induction l generalizing s with
  | nil => rfl
  | cons c l ih =>
    rw [List.foldl_cons]
    have h := ih (push (.followerTest c) s)
    generalize l.foldl (fun s c => push (.followerTest c) s) (push (.followerTest c) s) = u at h ⊢
    rw [h]
    rfl

@[simp] theorem ch_testFollowers (s : State) (c : Chan) : (testFollowers s).ch c = s.ch c :=
  ch_congr (by rw [testFollowers_eq]) c

/-! ## A channel's own change as a state -/

/-- A state that differs in channel `c` alone is that channel's change. -/
theorem eq_updChan {s u : State} {c : Chan} {f : Channel → Channel} (hframe : u = { s with chans := u.chans })
    (honly : OnlyChannel c s u) (hself : u.ch c = f (s.ch c)) : u = updChan c f s := by
  have hchans : u.chans = (updChan c f s).chans := chans_ext fun d => by
    by_cases h : d = c
    · subst h
      rw [ch_updChan_self, hself]
    · rw [ch_updChan_ne (Ne.symm h), honly d h]
  rw [hframe, hchans]
  rfl

/-! ## The populated flag (R62) -/

section
variable {s : State} {c : Chan} {b : Bool}

theorem setPopulated_of_same (h : s.populated c = b) : setPopulated c b s = s := if_pos h

/-- R15, R62: the changed flag, with what it clears; what is left is a test of a held follower. -/
theorem setPopulated_of_change (h : s.populated c ≠ b) :
    OnlyChannel c s (setPopulated c b s) ∧ (setPopulated c b s).ch c = (s.ch c).repopulated b ∧
    setPopulated c b s = { s with chans := (setPopulated c b s).chans, agenda := (setPopulated c b s).agenda } ∧
    (FollowerTests s → FollowerTests (setPopulated c b s)) := by
  have heq : setPopulated c b s = applyPopulated c (updCal c (fun r => ({ r with populated := b }).markChanged) s) :=
    if_neg h
  obtain ⟨honly, hself, hframe, -⟩ := applyPopulated_spec c (updCal c (fun r => ({ r with populated := b }).markChanged) s)
  rw [heq]
  refine ⟨(onlyChannel_updChan c _ s).trans honly, ?_, ?_, fun ht => ?_⟩
  · rw [hself, ch_updCal_self]
    rfl
  · generalize (applyPopulated c _).agenda = a at hframe ⊢
    generalize (applyPopulated c _).chans = v at hframe ⊢
    rw [hframe]
    rfl
  · refine followerTests_applyPopulated (ht.congr ?_) c
    rfl

/-- R62: the state once nothing is left of the change. -/
theorem settle_setPopulated (ha : s.agenda = []) (hw : ∀ d, (s.ch d).moc.motion ≠ .waiting) (h : s.populated c ≠ b) :
    settle (setPopulated c b s) = updChan c (Channel.repopulated b) s := by
  obtain ⟨honly, hself, hframe, htests⟩ := setPopulated_of_change h
  have hquiet (d : Chan) : ((setPopulated c b s).ch d).moc.motion ≠ .waiting := by
    by_cases hd : d = c
    · subst hd
      rw [hself]
      exact nofun
    · rw [honly d hd]
      exact hw d
  rw [settle_of_followerTests hquiet (htests (by simp [FollowerTests, ha]))]
  refine eq_updChan ?_ honly hself
  generalize (setPopulated c b s).agenda = a at hframe
  generalize (setPopulated c b s).chans = v at hframe
  rw [hframe, ← ha]

end

/-! ## The fields of a channel record (R59, R60) -/

section
variable (n v : Nat) (r : CalRecord)

theorem param_setParam : (r.setParam n v).param n = (r.withParam n v).param n := by
  unfold CalRecord.setParam
  split
  · next h => rw [h]
  · rfl

theorem param_polarity {v : Nat} (h : v ≤ 1) : (r.withParam 10 v).param 10 = natWord v := by
  interval_cases v <;> rfl

theorem param_companion {v : Nat} (h : v < 8 ∨ v = 15) : (r.withParam 11 v).param 11 = natWord v := by
  rcases h with h | rfl
  · simp [CalRecord.param, CalRecord.withParam, h]
  · rfl

theorem natWord_flag {v : Nat} (h : v = 0 ∨ v = 1) : natWord (bit (decide (v = 1))) = natWord v := by
  rcases h with rfl | rfl <;> rfl

theorem natWord_toNat (a : Word) : natWord a.toNat = a := by simp [natWord]

end

/-! ## The companion and the populated flag, admitted (R61, R62) -/

section
variable {s : State} {c : Chan}

theorem isNamed_iff : s.isNamed c = true ↔ ∃ q : Chan, q ≠ c ∧ (s.ch q).cal.companion = some c := by
  simp [State.isNamed, State.leadersOf, mem_allChans, and_comm]

theorem companionOk_iff {v : Nat} : s.companionOk c v = true ↔
    (v = 15 ∨ ∃ d : Chan, d.val = v ∧ d ≠ c ∧ (s.ch d).cal.populated = true ∧
      (s.ch d).cal.companion = none ∧ ∀ q : Chan, q ≠ c → (s.ch q).cal.companion ≠ some c) := by
  have hnamed : s.isNamed c = false ↔ ∀ q : Chan, q ≠ c → (s.ch q).cal.companion ≠ some c := by
    rw [← Bool.not_eq_true, isNamed_iff]
    simp
  by_cases h : v < 8
  · have hv : v ≠ 15 := by omega
    have hd (d : Chan) : d.val = v ↔ d = ⟨v, h⟩ := by rw [Fin.ext_iff]
    simp [State.companionOk, h, hv, hd, hnamed, State.populated, and_assoc]
  · have hd (d : Chan) : d.val ≠ v := fun e => h (e ▸ d.isLt)
    simp [State.companionOk, h, hd]

theorem populatedOk_iff : s.populatedOk c false = true ↔
    ¬ ((s.ch c).cal.companion ≠ none ∨ ∃ q : Chan, q ≠ c ∧ (s.ch q).cal.companion = some c) := by
  rw [← isNamed_iff]
  simp [State.populatedOk]

end

/-! ## The checks of R59 -/

section
variable {s : State} {x : Client} {c : Chan} {n v : Nat}

theorem setParameterRequest_channel {p m : BitVec 4} {a : Word} (hp : chanOf p = some c) :
    setParameterRequest x p m a s = setChannelParam x c m.toNat a.toNat s := by
  simp [setParameterRequest, isPanel15_of_chanOf hp, hp]

theorem setChannelParam_malformed (h : 14 ≤ n ∨ ((s.ch c).cal.populated = false ∧ n ≠ 0)) :
    setChannelParam x c n v s = refuse .badArgument s := by
  have hfail : (decide (14 ≤ n) || (!s.populated c && decide (n ≠ 0))) = true := by simpa [State.populated] using h
  simp only [setChannelParam, failsIf, hfail, if_true, firstFailing]

variable (hn : n < 14) (hpop : (s.ch c).cal.populated = true ∨ n = 0) (hright : s.hasRight x .calibrate = true)
  (hload : s.calLoaded = true) (herase : s.erasing = false)
include hn hpop hright

theorem setChannelParam_locked (hlock : s.glob.locked = true) : setChannelParam x c n v s = refuse .calLocked s := by
  have hpass : (decide (14 ≤ n) || (!s.populated c && decide (n ≠ 0))) = false := by
    rcases hpop with h | h <;> simp [State.populated, h, hn]
  have hcalib : s.calibRefusal x = some .calLocked := by
    simp [State.calibRefusal, State.rightRefusal, State.calStateRefusal, firstFailing, failsIf, hright, hlock]
  simp only [setChannelParam, failsIf, hpass, hcalib, Bool.false_eq_true, if_false, firstFailing]

variable (hlock : s.glob.locked = false)
include hload herase hlock

/-- R59: past the first four checks, BUSY off rest, BAD_ARGUMENT out of range, else DONE. -/
theorem setChannelParam_eq : setChannelParam x c n v s =
    if s.atRest c = false then refuse .busy s
    else if s.paramOk c n v = false then refuse .badArgument s
    else ⟨.done, ((writeChannelParam c n v s).ch c).cal.param n, writeChannelParam c n v s⟩ := by
  have hpass : (decide (14 ≤ n) || (!s.populated c && decide (n ≠ 0))) = false := by
    rcases hpop with h | h <;> simp [State.populated, h, hn]
  have hcalib : s.calibRefusal x = none := by
    simp [State.calibRefusal, State.rightRefusal, State.calStateRefusal, firstFailing, failsIf, hright, hlock, hload, herase]
  cases hrest : s.atRest c <;> cases hok : s.paramOk c n v <;>
    simp only [setChannelParam, firstFailing, failsIf, hpass, hcalib, hrest, hok, Bool.not_false, Bool.not_true,
      Bool.false_eq_true, Bool.true_eq_false, if_false, if_true]

end

/-! ## A field written (R59, R74, R145) -/

section
variable {s : State} {c : Chan} {n v : Nat}

theorem writeChannelParam_cal (hn : n ≠ 0) : ((writeChannelParam c n v s).ch c).cal = (s.ch c).cal.setParam n v := by
  simp only [writeChannelParam, hn, if_false]
  split
  · rw [ch_testFollowers, ch_updCal_self]
  · rw [ch_updCal_self]

theorem companionLink_setParam (hn : n ≤ 10) (r : CalRecord) : (r.setParam n v).companionLink = r.companionLink := by
  unfold CalRecord.setParam
  split
  · rfl
  · interval_cases n <;> rfl

/-- R152: a write of a companion link tests the held followers, of which there are none. -/
theorem settle_writeChannelParam (ha : s.agenda = []) (hn : n ≠ 0)
    (hw : n ≤ 10 ∨ ∀ d, (s.ch d).moc.motion ≠ .waiting) :
    settle (writeChannelParam c n v s) = updCal c (CalRecord.setParam n v) s := by
  obtain ⟨u, hu⟩ : ∃ u, u = updCal c (CalRecord.setParam n v) s := ⟨_, rfl⟩
  have hua : u.agenda = [] := by rw [hu]; exact ha
  have hwrite : writeChannelParam c n v s =
      if (u.ch c).cal.companionLink ≠ (s.ch c).cal.companionLink then testFollowers u else u := by
    rw [hu]
    exact if_neg hn
  rw [hwrite, ← hu]
  split
  · next hlink =>
    have hw' (d : Chan) : ((testFollowers u).ch d).moc.motion ≠ .waiting := by
      rw [ch_testFollowers, hu, updCal_id_moc]
      refine hw.resolve_left (fun hle => hlink ?_) d
      rw [hu, ch_updCal_self]
      exact companionLink_setParam hle _
    rw [settle_of_followerTests hw' (followerTests_testFollowers (by simp [FollowerTests, hua])), testFollowers_eq, ← hua]
  · exact settle_of_nil hua

end

/-! ## The request served -/

section
variable {s : State} {x : Client} {p m : BitVec 4} {a : Word} {c : Chan}

theorem exec_setParameter {res : Result} {d : Word} {t u : State} (hr : s.ready = true) (hp : chanOf p = some c)
    (h : setChannelParam x c m.toNat a.toNat (received x s) = ⟨res, d, t⟩) (ht : settle t = u) :
    exec (.setParameter x p m a) s = .next (setReply x res d u) := by
  have hbody : routed (setParameterRequest x p m a) (received x s) = ⟨res, d, t⟩ := by
    rw [routed_of_ready (by rw [received_ready, hr]), setParameterRequest_channel hp, h]
  change serve x (routed (setParameterRequest x p m a)) s = _
  rw [serve_eq, hbody, ht]

theorem exec_setParameter_refused {res : Result} (ha : s.agenda = []) (hr : s.ready = true) (hp : chanOf p = some c)
    (h : setChannelParam x c m.toNat a.toNat (received x s) = refuse res (received x s)) :
    exec (.setParameter x p m a) s = .next (setReply x res 0 (received x s)) :=
  exec_setParameter hr hp h (settle_of_nil ha)

/-- R59, checks 1 to 5 passed. -/
structure Writable (s : State) (x : Client) (c : Chan) (n : Nat) : Prop where
  selector : n < 14
  populated : (s.ch c).cal.populated = true ∨ n = 0
  right : s.hasRight x .calibrate = true
  loaded : s.calLoaded = true
  notErasing : s.erasing = false
  unlocked : s.glob.locked = false
  rest : s.atRest c = true

theorem setChannelParam_of_writable (hw : Writable s x c m.toNat) : setChannelParam x c m.toNat a.toNat (received x s) =
    if s.paramOk c m.toNat a.toNat = false then refuse .badArgument (received x s)
    else ⟨.done, ((writeChannelParam c m.toNat a.toNat (received x s)).ch c).cal.param m.toNat,
      writeChannelParam c m.toNat a.toNat (received x s)⟩ := by
  have heq := setChannelParam_eq (s := received x s) (v := a.toNat) hw.selector hw.populated hw.right hw.loaded
    hw.notErasing hw.unlocked
  have hrest : (received x s).atRest c = true := hw.rest
  rw [heq, hrest, if_neg (by decide)]
  rfl

variable (ha : s.agenda = []) (hr : s.ready = true) (hp : chanOf p = some c) (hw : Writable s x c m.toNat)
include ha hr hp hw

/-- R59, check 6: a value out of range. -/
theorem exec_setParameter_out_of_range (h : s.paramOk c m.toNat a.toNat = false) :
    exec (.setParameter x p m a) s = .next (setReply x .badArgument 0 (received x s)) :=
  exec_setParameter_refused ha hr hp ((setChannelParam_of_writable hw).trans (if_pos h))

/-- R59, R74: a value in range, of a selector other than the populated flag. -/
theorem exec_setParameter_field (h : s.paramOk c m.toNat a.toNat = true) (hn : m.toNat ≠ 0)
    (hval : ((s.ch c).cal.withParam m.toNat a.toNat).param m.toNat = natWord a.toNat)
    (hquiet : m.toNat ≤ 10 ∨ ∀ d, (s.ch d).moc.motion ≠ .waiting) :
    exec (.setParameter x p m a) s =
      .next (setReply x .done a (updCal c (CalRecord.setParam m.toNat a.toNat) (received x s))) := by
  have hdata : ((writeChannelParam c m.toNat a.toNat (received x s)).ch c).cal.param m.toNat = a := by
    rw [writeChannelParam_cal hn, param_setParam, ch_received, hval, natWord_toNat]
  have hbody := setChannelParam_of_writable (a := a) hw
  rw [if_neg (by rw [h]; decide), hdata] at hbody
  exact exec_setParameter hr hp hbody (settle_writeChannelParam ha hn hquiet)

/-- R62: the populated flag written as it stands. -/
theorem exec_setParameter_populated_same (h0 : m.toNat = 0) (h : s.paramOk c 0 a.toNat = true)
    (hv : a.toNat = 0 ∨ a.toNat = 1) (hs : s.populated c = decide (a.toNat = 1)) :
    exec (.setParameter x p m a) s = .next (setReply x .done a (received x s)) := by
  have hbody := setChannelParam_of_writable (a := a) hw
  have hwrite : writeChannelParam c 0 a.toNat (received x s) = received x s :=
    setPopulated_of_same (s := received x s) hs
  have hdata : ((received x s).ch c).cal.param 0 = a := by
    change natWord (bit (s.populated c)) = a
    rw [hs, natWord_flag hv, natWord_toNat]
  rw [h0, h, if_neg (by decide), hwrite, hdata] at hbody
  exact exec_setParameter hr hp (by rw [h0]; exact hbody) (settle_of_nil ha)

/-- R62: the populated flag changed. -/
theorem exec_setParameter_populated_change (h0 : m.toNat = 0) (h : s.paramOk c 0 a.toNat = true)
    (hv : a.toNat = 0 ∨ a.toNat = 1) (hs : s.populated c ≠ decide (a.toNat = 1))
    (hquiet : ∀ d, (s.ch d).moc.motion ≠ .waiting) :
    exec (.setParameter x p m a) s = .next (setReply x .done a
      (updChan c (Channel.repopulated (decide (a.toNat = 1))) (received x s))) := by
  have hbody := setChannelParam_of_writable (a := a) hw
  have hwrite : writeChannelParam c 0 a.toNat (received x s) = setPopulated c (decide (a.toNat = 1)) (received x s) := rfl
  have hdata : ((setPopulated c (decide (a.toNat = 1)) (received x s)).ch c).cal.param 0 = a := by
    rw [(setPopulated_of_change (s := received x s) hs).2.1]
    change natWord (bit (decide (a.toNat = 1))) = a
    rw [natWord_flag hv, natWord_toNat]
  rw [h0, h, if_neg (by decide), hwrite, hdata] at hbody
  exact exec_setParameter hr hp (by rw [h0]; exact hbody) (settle_setPopulated (s := received x s) ha hquiet hs)

end

/-- Settles O53: the checks in order, then selector by selector the field that is written. -/
theorem setParameterWritesOneField : Obligations.SetParameterWritesOneField := by
  intro s x p m a c ha hr hl he hp hright answers r v linked writes
  refine ⟨fun h => exec_setParameter_refused ha hr hp (setChannelParam_malformed (s := received x s) h), fun hsel hpop =>
    ⟨fun hlock => exec_setParameter_refused ha hr hp (setChannelParam_locked (s := received x s) hsel hpop hright hlock),
      fun hlock hrest => ?busy, fun hlock hrest => ?write⟩⟩
  case busy =>
    refine exec_setParameter_refused ha hr hp
      ((setChannelParam_eq (s := received x s) hsel hpop hright hl he hlock).trans (if_pos hrest))
  case write =>
    have hwritable : Writable s x c m.toNat := ⟨hsel, hpop, hright, hl, he, hlock, hrest⟩
    have hfield (n : Nat) (ok : Prop) (new : CalRecord) (hn : n ≠ 0) (hok : s.paramOk c n v = true ↔ ok)
        (hnew : r.withParam n v = new) (hval : ok → (r.withParam n v).param n = natWord v)
        (hquiet : n ≤ 10 ∨ ∀ d, (s.ch d).moc.motion ≠ .waiting) : writes n ok new := by
      rintro rfl
      refine ⟨fun h => ?_, fun h => exec_setParameter_out_of_range ha hr hp hwritable
        (Bool.eq_false_iff.mpr (hok.not.mpr h))⟩
      rw [exec_setParameter_field ha hr hp hwritable (hok.mpr h) hn (hval h) hquiet, ← hnew]
      rfl
    refine ⟨hfield 1 _ _ (by decide) (by simp [State.paramOk]) rfl (fun _ => rfl) (.inl (by decide)),
      hfield 2 _ _ (by decide) (by simp [State.paramOk]) rfl (fun _ => rfl) (.inl (by decide)),
      hfield 3 _ _ (by decide) (by simp [State.paramOk]) rfl (fun _ => rfl) (.inl (by decide)),
      hfield 4 _ _ (by decide) (by simp [State.paramOk]) rfl (fun _ => rfl) (.inl (by decide)),
      hfield 5 _ _ (by decide) (by simp [State.paramOk]) rfl (fun _ => rfl) (.inl (by decide)),
      hfield 6 _ _ (by decide) (by simp [State.paramOk]) rfl (fun _ => rfl) (.inl (by decide)),
      hfield 7 _ _ (by decide) (by simp [State.paramOk]) rfl (fun _ => rfl) (.inl (by decide)),
      hfield 8 _ _ (by decide) (by simp [State.paramOk]) rfl (fun _ => rfl) (.inl (by decide)),
      hfield 9 _ _ (by decide) (by simp [State.paramOk]) rfl (fun _ => rfl) (.inl (by decide)),
      hfield 10 _ _ (by decide) (by simp [State.paramOk]) rfl (fun h => param_polarity r h) (.inl (by decide)), fun hquiet => ?_⟩
    refine ⟨hfield 11 _ _ (by decide) companionOk_iff rfl (fun h => param_companion r ?_) (.inr hquiet),
      hfield 12 _ _ (by decide) (by simp [State.paramOk]) rfl (fun _ => rfl) (.inr hquiet),
      hfield 13 _ _ (by decide) (by simp [State.paramOk]) rfl (fun _ => rfl) (.inr hquiet), fun h0 => ?_⟩
    · rcases h with h | ⟨d, hd, -⟩
      · exact .inr h
      · exact .inl (hd ▸ d.isLt)
    · have hok : s.paramOk c 0 v = true ↔ v = 0 ∧ ¬ linked ∨ v = 1 := by
        simp only [State.paramOk, Bool.or_eq_true, Bool.and_eq_true, decide_eq_true_eq, populatedOk_iff]
        rfl
      refine ⟨fun h => ?_, fun h => ?_, fun h => ?_⟩
      · refine exec_setParameter_out_of_range ha hr hp hwritable (Bool.eq_false_iff.mpr ?_)
        rw [h0, Ne, hok]
        rcases h with h | ⟨h, hlink⟩
        · omega
        · rintro (⟨-, hno⟩ | h1)
          · exact hno hlink
          · omega
      · have hin : s.paramOk c 0 v = true := hok.mpr (h.elim (fun h => .inr h.1) fun h => .inl ⟨h.1, h.2.2⟩)
        refine exec_setParameter_populated_same ha hr hp hwritable h0 hin (h.elim (fun h => .inr h.1) fun h => .inl h.1) ?_
        rcases h with ⟨h1, hpop⟩ | ⟨h0, hpop, -⟩
        · exact Eq.trans hpop (decide_eq_true h1).symm
        · exact Eq.trans hpop (decide_eq_false fun h1 => absurd (h0.symm.trans h1) (by decide)).symm
      · have hin : s.paramOk c 0 v = true := hok.mpr (h.elim (fun h => .inr h.1) fun h => .inl ⟨h.1, h.2.2⟩)
        refine exec_setParameter_populated_change ha hr hp hwritable h0 hin (h.elim (fun h => .inr h.1) fun h => .inl h.1)
          (fun hsame => ?_) hquiet
        rcases h with ⟨h1, hpop⟩ | ⟨h0, hpop, -⟩
        · exact absurd (hpop.symm.trans (hsame.trans (decide_eq_true h1))) (by decide)
        · exact absurd (hpop.symm.trans (hsame.trans (decide_eq_false fun h1 => absurd (h0.symm.trans h1) (by decide))))
            (by decide)

end Sys2Proof.Machine
end

section
/-! SET PARAMETER of the global record (R59, R63, R74, R176): the rights, Ns, Ts and the populated mask. -/

namespace Sys2Proof.Machine

/-! ## The words of a mask and of a rights row (R176) -/

theorem panelMask_eq_some {a : Word} {mask : BitVec 8} :
    panelMask a = some mask ↔ a.extractLsb' 8 8 = 0 ∧ a.extractLsb' 0 8 = mask := by
  unfold panelMask
  split <;> simp_all

theorem maskWord_extract {a : Word} (h : a.extractLsb' 8 8 = 0) : maskWord (a.extractLsb' 0 8) = a := by
  have hlt : a.toNat / 256 % 256 = 0 := by simpa [Nat.shiftRight_eq_div_pow] using congrArg BitVec.toNat h
  have ha := a.isLt
  refine BitVec.eq_of_toNat_eq ?_
  simp [maskWord]
  omega

theorem maskWhere_eq {f : Chan → Bool} {mask : BitVec 8} (h : ∀ c, f c = inMask mask c) : maskWhere f = mask :=
  BitVec.eq_of_getLsbD_eq fun i hi => (getLsbD_maskWhere f ⟨i, hi⟩).trans (h ⟨i, hi⟩)

theorem rightsOf_eq_some {a : Word} (h : a.extractLsb' 5 3 = 0) :
    rightsOf a = some ⟨a.extractLsb' 8 8, a.extractLsb' 0 5⟩ := if_pos h

theorem rightsOf_eq_none {a : Word} (h : a.extractLsb' 5 3 ≠ 0) : rightsOf a = none := if_neg h

theorem rightsWord_extract {a : Word} (h : a.extractLsb' 5 3 = 0) :
    rightsWord ⟨a.extractLsb' 8 8, a.extractLsb' 0 5⟩ = a := by
  have hlow : a.toNat / 32 % 8 = 0 := by simpa [Nat.shiftRight_eq_div_pow] using congrArg BitVec.toNat h
  have ha := a.isLt
  refine BitVec.eq_of_toNat_eq ?_
  simp only [rightsWord, BitVec.toNat_append, BitVec.toNat_setWidth, BitVec.extractLsb'_toNat, Nat.shiftRight_eq_div_pow]
  rw [Nat.shiftLeft_eq, ← Nat.shiftLeft_eq, ← Nat.shiftLeft_add_eq_or_of_lt (by omega), Nat.shiftLeft_eq]
  omega

theorem getLsbD_rights {a : Word} : (a.extractLsb' 0 5).getLsbD (rightBit .calibrate) = a.getLsbD 4 := by
  simp [rightBit]

/-! ## The request -/

section
variable {s : State} {x : Client} {n : Nat} {a : Word}

theorem setGlobalParam_malformed (h : 7 ≤ n) : setGlobalParam x n a s = refuse .badArgument s := by
  simp only [setGlobalParam, failsIf, decide_eq_true h, if_true, firstFailing]

variable (hn : n < 7) (hright : s.hasRight x .calibrate = true) (hl : s.calLoaded = true) (he : s.erasing = false)
  (hlock : s.glob.locked = false)
include hn hright hl he hlock

/-- R59, R63: past the first checks, BUSY, BAD_ARGUMENT out of range, else DONE with the value read back. -/
theorem setGlobalParam_eq : setGlobalParam x n a s =
    if s.globalBusy n a = true then refuse .busy s
    else if s.globalOk n a = false then refuse .badArgument s
    else ⟨.done, (writeGlobalParam n a s).globalParam n, writeGlobalParam n a s⟩ := by
  have hpass : decide (7 ≤ n) = false := by simp [hn]
  have hcalib : s.calibRefusal x = none := by
    simp [State.calibRefusal, State.rightRefusal, State.calStateRefusal, firstFailing, failsIf, hright, hlock, hl, he]
  cases hbusy : s.globalBusy n a <;> cases hok : s.globalOk n a <;>
    simp only [setGlobalParam, firstFailing, failsIf, hpass, hcalib, hbusy, hok, Bool.not_false, Bool.not_true,
      Bool.false_eq_true, Bool.true_eq_false, if_false, if_true]

end

/-- R59, checks 1 to 4 passed for the global record. -/
structure GlobalWritable (s : State) (x : Client) : Prop where
  noAgenda : s.agenda = []
  ready : s.ready = true
  loaded : s.calLoaded = true
  notErasing : s.erasing = false
  unlocked : s.glob.locked = false
  right : s.hasRight x .calibrate = true

section
variable {s : State} {x : Client} {m : BitVec 4} {a : Word}

theorem exec_setGlobal {res : Result} {d : Word} {t u : State} (hr : s.ready = true)
    (h : setGlobalParam x m.toNat a (received x s) = ⟨res, d, t⟩) (ht : settle t = u) :
    exec (.setParameter x 15 m a) s = .next (setReply x res d u) := by
  have hbody : routed (setParameterRequest x 15 m a) (received x s) = ⟨res, d, t⟩ := by
    rw [routed_of_ready (by rw [received_ready, hr]), ← h]
    exact if_pos rfl
  change serve x (routed (setParameterRequest x 15 m a)) s = _
  rw [serve_eq, hbody, ht]

theorem exec_setGlobal_malformed (hw : GlobalWritable s x) (h : 7 ≤ m.toNat) :
    exec (.setParameter x 15 m a) s = .next (setReply x .badArgument 0 (received x s)) :=
  exec_setGlobal hw.ready (setGlobalParam_malformed h) (settle_of_nil hw.noAgenda)

variable (hw : GlobalWritable s x) (hn : m.toNat < 7)
include hw hn

theorem exec_setGlobal_busy (h : s.globalBusy m.toNat a = true) :
    exec (.setParameter x 15 m a) s = .next (setReply x .busy 0 (received x s)) :=
  exec_setGlobal hw.ready ((setGlobalParam_eq (s := received x s) hn hw.right hw.loaded hw.notErasing hw.unlocked).trans
    (if_pos h)) (settle_of_nil hw.noAgenda)

theorem exec_setGlobal_out_of_range (hb : s.globalBusy m.toNat a = false) (h : s.globalOk m.toNat a = false) :
    exec (.setParameter x 15 m a) s = .next (setReply x .badArgument 0 (received x s)) :=
  exec_setGlobal hw.ready ((setGlobalParam_eq (s := received x s) hn hw.right hw.loaded hw.notErasing hw.unlocked).trans
    ((if_neg (by rw [show (received x s).globalBusy m.toNat a = false from hb]; decide)).trans (if_pos h)))
    (settle_of_nil hw.noAgenda)

theorem exec_setGlobal_done (hb : s.globalBusy m.toNat a = false) (h : s.globalOk m.toNat a = true) {u : State}
    (hu : settle (writeGlobalParam m.toNat a (received x s)) = u)
    (hd : (writeGlobalParam m.toNat a (received x s)).globalParam m.toNat = a) :
    exec (.setParameter x 15 m a) s = .next (setReply x .done a u) := by
  have hbody := setGlobalParam_eq (s := received x s) (a := a) hn hw.right hw.loaded hw.notErasing hw.unlocked
  rw [show (received x s).globalBusy m.toNat a = false from hb, show (received x s).globalOk m.toNat a = true from h,
    if_neg (by decide), if_neg (by decide), hd] at hbody
  exact exec_setGlobal hw.ready hbody hu

end

/-! ## The global record written (R63, R74) -/

/-- R63, R74: `new` in place of `old`, marked when it differs. -/
def GlobalRecord.marked (old new : GlobalRecord) : GlobalRecord := if new = old then old else new.markChanged

theorem setGlobal_eq (f : GlobalRecord → GlobalRecord) (s : State) :
    setGlobal f s = { s with glob := s.glob.marked (f s.glob) } := rfl

/-- The marks aside, a write leaves the new values. -/
theorem GlobalRecord.marked_field {α : Type} (field : GlobalRecord → α) (h : ∀ g : GlobalRecord, field g.markChanged = field g)
    (old new : GlobalRecord) : field (old.marked new) = field new := by
  unfold GlobalRecord.marked
  split
  · next heq => rw [heq]
  · exact h new

/-- R63, R111: the spacing timer measured against Ts as it stands; with nothing queued the grant test grants nothing. -/
theorem settle_retimeSpacing {u : State} (ha : u.agenda = []) (hq : u.startQueue = []) : settle (retimeSpacing u) =
    { u with spacing := match u.spacing with
        | .unarmed => .unarmed
        | .armed since _ => .armed since (since + 10000 * u.glob.ts ≤ u.clock.now) } := by
  have hagenda : (retimeSpacing u).agenda = [.grantTest] := by
    change u.agenda ++ [.grantTest] = _
    rw [ha]
    rfl
  unfold settle
  rw [settleN_of_inert]
  · unfold retimeSpacing
    cases h : u.spacing <;> simp [push, ha]
  · intro t ht b
    rw [hagenda] at ht
    rw [List.mem_singleton.mp ht]
    exact grantTest_of_empty hq

section
variable {s : State} {y : Client} {a : Word}

theorem rightsClient_eq (y : Client) : rightsClient (y.val + 3) = y := by
  revert y
  decide

theorem globalBusy_rights (y : Client) : s.globalBusy (3 + y.val) a = false := by
  rw [Nat.add_comm]
  rfl

theorem globalOk_rights {r : Rights} (h : rightsOf a = some r) :
    s.globalOk (3 + y.val) a = true ↔ y ≠ 3 ∨ r.rights.getLsbD (rightBit .calibrate) = true := by
  have hy : y.val + 3 = 6 ↔ y = 3 := by rw [Fin.ext_iff]; omega
  rw [Nat.add_comm]
  simp [State.globalOk, h, hy]

theorem globalOk_bad_rights (h : rightsOf a = none) : s.globalOk (3 + y.val) a = false := by
  rw [Nat.add_comm]
  simp [State.globalOk, h]

theorem writeGlobalParam_rights {r : Rights} (h : rightsOf a = some r) :
    writeGlobalParam (3 + y.val) a s = setGlobal (fun g => { g with rights := g.rights.set y r }) s := by
  rw [Nat.add_comm]
  simp only [writeGlobalParam, h, rightsClient_eq]

theorem globalParam_rights : s.globalParam (3 + y.val) = rightsWord (s.rights y) := by
  match y with
  | 0 => rfl
  | 1 => rfl
  | 2 => rfl
  | 3 => rfl

end

/-! ## The populated mask (R62, R63) -/

/-- R63: the flags along the eight channels, and the tests of held followers that are left. -/
theorem foldl_setPopulated (mask : BitVec 8) (s : State) (ha : s.agenda = []) :
    let t := allChans.foldl (fun s c => setPopulated c (inMask mask c) s) s
    t = { s with chans := t.chans, agenda := t.agenda } ∧ FollowerTests t ∧
    ∀ c, t.ch c = if (s.ch c).cal.populated = inMask mask c then s.ch c else (s.ch c).repopulated (inMask mask c) := by
  have hstep (u : State) (c : Chan) : OnlyChannel c u (setPopulated c (inMask mask c) u) ∧
      (setPopulated c (inMask mask c) u).ch c =
        (if (u.ch c).cal.populated = inMask mask c then u.ch c else (u.ch c).repopulated (inMask mask c)) ∧
      setPopulated c (inMask mask c) u = { u with
        chans := (setPopulated c (inMask mask c) u).chans, agenda := (setPopulated c (inMask mask c) u).agenda } ∧
      (FollowerTests u → FollowerTests (setPopulated c (inMask mask c) u)) := by
    by_cases h : u.populated c = inMask mask c
    · rw [setPopulated_of_same h]
      exact ⟨.refl c u, (if_pos h).symm, rfl, id⟩
    · obtain ⟨h1, h2, h3, h4⟩ := setPopulated_of_change h
      exact ⟨h1, h2.trans (if_neg h).symm, h3, h4⟩
  obtain ⟨⟨hframe, htests⟩, hch⟩ := foldl_allChans (f := fun s c => setPopulated c (inMask mask c) s) (s := s)
    (I := fun u => u = { s with chans := u.chans, agenda := u.agenda } ∧ FollowerTests u)
    (P := fun c k k' => k' = if k.cal.populated = inMask mask c then k else k.repopulated (inMask mask c))
    (fun {u} c h => ⟨by
      obtain ⟨-, -, h3, -⟩ := hstep u c
      generalize setPopulated c (inMask mask c) u = v at h3 ⊢
      rw [h3, h.1], (hstep u c).2.2.2 h.2⟩)
    (fun c _ => (hstep _ c).1) (fun c _ => (hstep _ c).2.1) ⟨rfl, by simp [FollowerTests, ha]⟩
  exact ⟨hframe, htests, hch⟩

/-! ## Selector by selector -/

section
variable {s : State} {x y : Client} {m : BitVec 4} {a : Word}

theorem atRest_of_not_any (h : ∀ c, s.atRest c = true) (l : List Chan) : (l.any fun c => !s.atRest c) = false := by simp [h]

theorem exec_setRights (hw : GlobalWritable s x) (hm : m.toNat = 3 + y.val) (h5 : a.extractLsb' 5 3 = 0)
    (hc : y ≠ 3 ∨ a.getLsbD 4 = true) :
    exec (.setParameter x 15 m a) s = .next (setReply x .done a { received x s with
      glob := s.glob.marked { s.glob with rights := s.glob.rights.set y ⟨a.extractLsb' 8 8, a.extractLsb' 0 5⟩ } }) := by
  have hrow := rightsOf_eq_some h5
  have hwrite : writeGlobalParam m.toNat a (received x s) = { received x s with
      glob := s.glob.marked { s.glob with rights := s.glob.rights.set y ⟨a.extractLsb' 8 8, a.extractLsb' 0 5⟩ } } := by
    rw [hm, writeGlobalParam_rights hrow]
    rfl
  refine exec_setGlobal_done hw (by have := y.isLt; omega) (by rw [hm, globalBusy_rights]) ?_
    ((congrArg settle hwrite).trans (settle_of_nil hw.noAgenda)) ?_
  · rw [hm, globalOk_rights hrow]
    exact hc.imp_right fun h => getLsbD_rights.trans h
  · rw [hwrite, hm, globalParam_rights]
    refine Eq.trans (congrArg rightsWord ?_) (rightsWord_extract h5)
    refine (GlobalRecord.marked_field (fun g => g.rights[y]) (fun _ => rfl) ..).trans ?_
    simp

theorem exec_setNs (hw : GlobalWritable s x) (hm : m.toNat = 0) (hrest : ∀ c, s.atRest c = true) (h1 : 1 ≤ a.toNat)
    (h4 : a.toNat ≤ 4) : exec (.setParameter x 15 m a) s = .next (setReply x .done a
      { received x s with glob := s.glob.marked { s.glob with ns := a.toNat } }) := by
  refine exec_setGlobal_done hw (by omega) ?_ ?_ (settle_of_nil (s := writeGlobalParam m.toNat a (received x s)) ?_ |>.trans ?_) ?_
  · rw [hm]
    exact atRest_of_not_any hrest _
  · simp [hm, State.globalOk, h1, h4]
  · rw [hm]
    exact hw.noAgenda
  · rw [hm]
    rfl
  · rw [hm]
    refine (congrArg natWord (GlobalRecord.marked_field GlobalRecord.ns (fun _ => rfl) ..)).trans (natWord_toNat a)

theorem exec_setTs (hw : GlobalWritable s x) (hm : m.toNat = 1) (h2 : 2 ≤ a.toNat) (h20 : a.toNat ≤ 20)
    (hq : s.startQueue = []) : exec (.setParameter x 15 m a) s = .next (setReply x .done a
      { received x s with
        glob := s.glob.marked { s.glob with ts := a.toNat }
        spacing := match s.spacing with
          | .unarmed => .unarmed
          | .armed since _ => .armed since (since + 10000 * a.toNat ≤ s.clock.now) }) := by
  have hts : (s.glob.marked { s.glob with ts := a.toNat }).ts = a.toNat :=
    GlobalRecord.marked_field GlobalRecord.ts (fun _ => rfl) ..
  obtain ⟨u, hu⟩ : ∃ u, u = { received x s with glob := s.glob.marked { s.glob with ts := a.toNat } } := ⟨_, rfl⟩
  have hwrite : writeGlobalParam m.toNat a (received x s) = retimeSpacing u := by
    rw [hm, hu]
    rfl
  have hsettle := settle_retimeSpacing (u := u) (by rw [hu]; exact hw.noAgenda) (by rw [hu]; exact hq)
  refine exec_setGlobal_done hw (by omega) (by rw [hm]; rfl) (by simp [hm, State.globalOk, h2, h20]) ?_ ?_
  · rw [hwrite, hsettle, hu]
    simp only [hts]
    rfl
  · rw [hwrite, hm, hu]
    exact (congrArg natWord hts).trans (natWord_toNat a)

theorem changedBy_any {mask : BitVec 8} : ((s.changedBy mask).any fun c => !s.atRest c) = true ↔
    ∃ c, (s.ch c).cal.populated ≠ inMask mask c ∧ s.atRest c = false := by
  simp only [State.changedBy, State.populated, List.any_eq_true, List.mem_filter, mem_allChans, true_and, Bool.not_eq_true']
  exact exists_congr fun c => and_congr_left' decide_eq_true_iff

/-- R62, R63: the mask is admitted when no flag that it clears stands on a linked channel. -/
theorem globalOk_mask {mask : BitVec 8} (h : panelMask a = some mask) : s.globalOk 2 a = true ↔
    ∀ c, (s.ch c).cal.populated ≠ inMask mask c → inMask mask c = false →
      ¬ ((s.ch c).cal.companion ≠ none ∨ ∃ q : Chan, q ≠ c ∧ (s.ch q).cal.companion = some c) := by
  have hok (c : Chan) : s.populatedOk c (inMask mask c) = true ↔ (inMask mask c = false → s.populatedOk c false = true) := by
    cases inMask mask c <;> simp [State.populatedOk]
  simp only [State.globalOk, h, State.changedBy, List.all_eq_true, List.mem_filter, mem_allChans, true_and,
    decide_eq_true_eq, hok, populatedOk_iff]
  rfl

/-- R63: the mask written, flag by flag. -/
theorem exec_setMask (hw : GlobalWritable s x) (hm : m.toNat = 2) {mask : BitVec 8} (hmask : panelMask a = some mask)
    (hrest : ∀ c, (s.ch c).cal.populated ≠ inMask mask c → s.atRest c = true) (hok : s.globalOk 2 a = true)
    (hquiet : ∀ d, (s.ch d).moc.motion ≠ .waiting) :
    ∃ t, exec (.setParameter x 15 m a) s = .next t ∧ Replies x .done a t ∧
      t = { s with chans := t.chans, links := t.links } ∧
      ∀ c, t.ch c = if (s.ch c).cal.populated = inMask mask c then s.ch c else (s.ch c).repopulated (inMask mask c) := by
  obtain ⟨hhigh, hlow⟩ := panelMask_eq_some.mp hmask
  have hfold := foldl_setPopulated mask (received x s) hw.noAgenda
  obtain ⟨u, hu⟩ : ∃ u, allChans.foldl (fun s c => setPopulated c (inMask mask c) s) (received x s) = u := ⟨_, rfl⟩
  rw [hu] at hfold
  obtain ⟨hframe, htests, hch⟩ := hfold
  have hwrite : writeGlobalParam m.toNat a (received x s) = u := by
    rw [hm, ← hu, ← hlow]
    rfl
  have hpopulated (c : Chan) : u.populated c = inMask mask c := by
    rw [State.populated, hch]
    split
    · next h => exact h
    · rfl
  have hwait (c : Chan) : (u.ch c).moc.motion ≠ .waiting := by
    rw [hch]
    split
    · exact hquiet c
    · exact nofun
  have hdata : u.globalParam 2 = a := by
    change maskWord (maskWhere u.populated) = a
    rw [maskWhere_eq hpopulated, ← hlow, maskWord_extract hhigh]
  have hbusy : s.globalBusy m.toNat a = false := by
    rw [hm, Bool.eq_false_iff]
    change ¬ ((s.changedBy (a.extractLsb' 0 8)).any fun c => !s.atRest c) = true
    rw [hlow, changedBy_any]
    rintro ⟨c, hc, hr⟩
    exact absurd (hrest c hc) (by simp [hr])
  refine ⟨_, exec_setGlobal_done hw (by omega) hbusy (by rw [hm, hok]) (by rw [hwrite, settle_of_followerTests hwait htests])
    (by rw [hwrite, hm, hdata]), replies_setReply .., ?_, fun c => ?_⟩
  · refine OnlyParts.trans (t := { u with agenda := [] }) ?_ (.of_onlyLinks (onlyLinks_setReply ..))
    unfold OnlyParts
    rw [hframe, ← hw.noAgenda]
    rfl
  · rw [ch_setReply]
    exact hch c

end

/-- Settles O54: the checks, then the rights, Ns, Ts and the mask. -/
theorem rightsWriteTakesEffect : Obligations.RightsWriteTakesEffect := by
  intro s x y a m ha hr hl he hlock hright answers global linked
  have hw : GlobalWritable s x := ⟨ha, hr, hl, he, hlock, hright⟩
  refine ⟨fun hm => ⟨fun h => ?badRights, exec_setRights hw hm⟩, fun hm => ⟨fun h => ?nsBusy, fun hrest h => ?nsRange,
    exec_setNs hw hm⟩, fun hm => ⟨fun h => ?tsRange, exec_setTs hw hm⟩, fun hm => ⟨fun hrest h => ?maskWord,
    fun mask hmask => ⟨fun h => ?maskBusy, fun hrest => ⟨fun h => ?maskLinked, fun hquiet h => ?mask⟩⟩⟩,
    exec_setGlobal_malformed hw⟩
  case badRights =>
    refine exec_setGlobal_out_of_range hw (by have := y.isLt; omega) (by rw [hm, globalBusy_rights]) ?_
    rw [hm]
    by_cases h5 : a.extractLsb' 5 3 = 0
    · obtain ⟨hy, h4⟩ := h.resolve_left (not_not_intro h5)
      rw [Bool.eq_false_iff, Ne, globalOk_rights (rightsOf_eq_some h5), getLsbD_rights, h4]
      simp [hy]
    · exact globalOk_bad_rights (rightsOf_eq_none h5)
  case nsBusy =>
    obtain ⟨c, hc⟩ := h
    refine exec_setGlobal_busy hw (by omega) ?_
    rw [hm]
    exact List.any_eq_true.mpr ⟨c, mem_allChans c, by simp [hc]⟩
  case nsRange =>
    refine exec_setGlobal_out_of_range hw (by omega) ?_ ?_
    · rw [hm]
      exact atRest_of_not_any hrest _
    · simp only [hm, State.globalOk, Bool.and_eq_false_iff, decide_eq_false_iff_not]
      omega
  case tsRange =>
    refine exec_setGlobal_out_of_range hw (by omega) (by rw [hm]; rfl) ?_
    simp only [hm, State.globalOk, Bool.and_eq_false_iff, decide_eq_false_iff_not]
    omega
  case maskWord =>
    refine exec_setGlobal_out_of_range hw (by omega) ?_ ?_
    · rw [hm]
      exact atRest_of_not_any hrest _
    · have hnone : panelMask a = none := if_neg h
      simp [hm, State.globalOk, hnone]
  case maskBusy =>
    refine exec_setGlobal_busy hw (by omega) ?_
    rw [hm]
    change ((s.changedBy (a.extractLsb' 0 8)).any fun c => !s.atRest c) = true
    rw [(panelMask_eq_some.mp hmask).2, changedBy_any]
    exact h
  case maskLinked =>
    refine exec_setGlobal_out_of_range hw (by omega) ?_ ?_
    · rw [hm, Bool.eq_false_iff]
      change ¬ ((s.changedBy (a.extractLsb' 0 8)).any fun c => !s.atRest c) = true
      rw [(panelMask_eq_some.mp hmask).2, changedBy_any]
      rintro ⟨c, hc, hbusy⟩
      exact absurd (hrest c hc) (by simp [hbusy])
    · obtain ⟨c, hc, hclear, hlinked⟩ := h
      rw [hm, Bool.eq_false_iff, Ne, globalOk_mask hmask]
      exact fun hall => hall c hc hclear hlinked
  case mask =>
    obtain ⟨t, hex, hrep, hframe, hch⟩ := exec_setMask hw hm hmask hrest ((globalOk_mask hmask).mpr h) hquiet
    exact ⟨t, hex, hrep, hframe, fun c => ⟨fun hc => (hch c).trans (if_neg hc), fun hc => (hch c).trans (if_pos (not_not.mp hc))⟩⟩

end Sys2Proof.Machine
end

section
/-! READ PANEL (R177): the words of the selectors and the fields they are made of. -/

namespace Sys2Proof.Machine

/-! ## Fields of a word -/

theorem extract_natWord_eq {start len n v : Nat} (h : start + len ≤ 16) (hv : n / 2 ^ start % 2 ^ len = v) :
    (natWord n).extractLsb' start len = BitVec.ofNat len v := by
  rw [extract_natWord h, ← hv]
  exact BitVec.eq_of_toNat_eq (by simp)

theorem getLsbD_natWord {i n : Nat} {b : Bool} (hi : i < 16) (hv : n / 2 ^ i % 2 = bit b) : (natWord n).getLsbD i = b := by
  rw [natWord, BitVec.getLsbD_ofNat, Nat.testBit_eq_decide_div_mod_eq, hv]
  cases b <;> simp [hi, bit]

theorem bit_le_one (b : Bool) : bit b ≤ 1 := by cases b <;> decide

theorem motionCode_le (m : Motion) : motionCode m ≤ 8 := by cases m <;> decide
theorem levelCode_le (l : Level) : levelCode l ≤ 3 := by cases l <;> decide
theorem holdCode_le (h : Hold) : holdCode h ≤ 2 := by cases h <;> decide
theorem faultCode_le (f : Option FaultReason) : faultCode f ≤ 4 := by
  cases f with
  | none => decide
  | some r => cases r <;> decide
theorem phaseCode_le (p : Phase) : phaseCode p ≤ 3 := by cases p <;> decide

/-! ## The place in the start queue (R114) -/

section
variable {s : State} {c : Chan}

theorem queuePlace_of_not_mem (h : c ∉ s.startQueue) : s.queuePlace c = 0 := by
  have hnone : s.startQueue.findIdx? (· = c) = none := by
    rw [List.findIdx?_eq_none_iff]
    intro d hd
    exact decide_eq_false fun e => h (e ▸ hd)
  simp [State.queuePlace, hnone]

theorem queuePlace_of_place (hn : s.startQueue.Nodup) {i : Nat} (h : s.startQueue[i]? = some c) : s.queuePlace c = i + 1 := by
  obtain ⟨hi, hc⟩ := List.getElem?_eq_some_iff.mp h
  have hsome : s.startQueue.findIdx? (· = c) = some i := by
    refine List.findIdx?_eq_some_iff_getElem.mpr ⟨hi, by simp [hc], fun j hj => ?_⟩
    have hne : s.startQueue[j] ≠ s.startQueue[i] := fun e => by
      have := (List.Nodup.getElem_inj_iff hn).mp e
      omega
    simpa [hc] using hne
  simp [State.queuePlace, hsome]

theorem queuePlace_le (hn : s.startQueue.Nodup) : s.queuePlace c ≤ 8 := by
  by_cases h : c ∈ s.startQueue
  · obtain ⟨i, hi, hc⟩ := List.getElem_of_mem h
    rw [queuePlace_of_place hn (List.getElem?_eq_some_iff.mpr ⟨hi, hc⟩)]
    have hlen : s.startQueue.length ≤ 8 := by simpa using hn.length_le_card
    omega
  · rw [queuePlace_of_not_mem h]
    decide

/-! ## Selectors 1 to 3 -/

theorem motionWord_fields (hn : s.startQueue.Nodup) :
    (s.motionWord c).extractLsb' 12 4 = BitVec.ofNat 4 (motionCode (s.ch c).moc.motion) ∧
    (s.motionWord c).extractLsb' 10 2 = BitVec.ofNat 2 (levelCode (s.ch c).level) ∧
    (s.motionWord c).extractLsb' 8 2 = BitVec.ofNat 2 (holdCode (s.ch c).hold) ∧
    (s.motionWord c).extractLsb' 4 4 = BitVec.ofNat 4 (faultCode (s.ch c).moc.fault) ∧
    (s.motionWord c).extractLsb' 0 4 = BitVec.ofNat 4 (s.queuePlace c) := by
  have h1 := motionCode_le (s.ch c).moc.motion
  have h2 := levelCode_le (s.ch c).level
  have h3 := holdCode_le (s.ch c).hold
  have h4 := faultCode_le (s.ch c).moc.fault
  have h5 := queuePlace_le (c := c) hn
  unfold State.motionWord
  refine ⟨?_, ?_, ?_, ?_, ?_⟩ <;> exact extract_natWord_eq (by decide) (by omega)

theorem firstClient_single : ∀ y : Client, firstClient (1 <<< y.val) = some y := by decide

theorem flagWord_fields (hk : (s.ch c).auth.overrideLevel ≤ 3) : let w := s.flagWord c
    w.getLsbD 0 = (s.ch c).hif.posValid ∧ w.getLsbD 1 = (s.ch c).moc.latched ∧ w.getLsbD 2 = (s.ch c).auth.inhibit ∧
    w.getLsbD 3 = (s.ch c).cal.unsaved ∧ w.getLsbD 4 = (s.ch c).moc.slot ∧ w.getLsbD 5 = (s.ch c).moc.brakeRunning ∧
    w.extractLsb' 6 2 = BitVec.ofNat 2 (s.ch c).auth.overrideLevel ∧
    w.extractLsb' 8 4 = BitVec.ofNat 4 (s.ch c).auth.claims.toNat ∧
    w.extractLsb' 12 2 = BitVec.ofNat 2 (((firstClient (s.ch c).auth.lockouts).map Fin.val).getD 0) ∧
    w.extractLsb' 12 3 = BitVec.ofNat 3 (((firstClient (s.ch c).auth.lockouts).map Fin.val).getD 0 +
      4 * bit (firstClient (s.ch c).auth.lockouts).isSome) ∧
    w.getLsbD 14 = (firstClient (s.ch c).auth.lockouts).isSome ∧ w.getLsbD 15 = false := by
  have h0 := bit_le_one (s.ch c).hif.posValid
  have h1 := bit_le_one (s.ch c).moc.latched
  have h2 := bit_le_one (s.ch c).auth.inhibit
  have h3 := bit_le_one (s.ch c).cal.unsaved
  have h4 := bit_le_one (s.ch c).moc.slot
  have h5 := bit_le_one (s.ch c).moc.brakeRunning
  have h6 := (s.ch c).auth.claims.isLt
  have h7 : ((firstClient (s.ch c).auth.lockouts).map Fin.val).getD 0 ≤ 3 := by
    cases firstClient (s.ch c).auth.lockouts with
    | none => decide
    | some y => exact Nat.le_of_lt_succ y.isLt
  have h8 := bit_le_one (firstClient (s.ch c).auth.lockouts).isSome
  have h9 : bit false = 0 := rfl
  simp only [State.flagWord, Option.isSome_map]
  refine ⟨getLsbD_natWord (by decide) (by omega), getLsbD_natWord (by decide) (by omega), getLsbD_natWord (by decide) (by omega),
    getLsbD_natWord (by decide) (by omega), getLsbD_natWord (by decide) (by omega), getLsbD_natWord (by decide) (by omega),
    extract_natWord_eq (by decide) (by omega), extract_natWord_eq (by decide) (by omega),
    extract_natWord_eq (by decide) (by omega), extract_natWord_eq (by decide) (by omega),
    getLsbD_natWord (by decide) (by omega), getLsbD_natWord (by decide) (by omega)⟩

end

/-- R177: the mover's number in an order's word. -/
def Order.moverNumber (o : Order) : Nat :=
  match o.mover with
  | .client => o.client.val
  | .group g => g.val
  | .companion p => p.val
  | .learn => o.client.val

/-- R177: the code of the mover kind. -/
def moverCode : Mover → Nat
  | .client => 0
  | .group _ => 1
  | .companion _ => 2
  | .learn => 3

theorem moverBits_eq (o : Order) : o.moverBits = 256 * o.moverNumber + 2048 * moverCode o.mover := by
  unfold Order.moverBits Order.moverNumber moverCode
  cases o.mover <;> rfl

theorem moverNumber_le (o : Order) : o.moverNumber ≤ 7 := by
  have hc := o.client.isLt
  unfold Order.moverNumber
  split <;> omega

theorem moverCode_le (m : Mover) : moverCode m ≤ 3 := by cases m <;> simp [moverCode]

theorem orderWord_fields (o : Order) (hk : o.k ≤ 3) : let w := orderWord (some o)
    w.getLsbD 0 = true ∧ w.getLsbD 1 = decide (o.dir = .opening) ∧ w.getLsbD 2 = decide (o.mode = .auto) ∧
    w.getLsbD 3 = decide (o.origin = .remoteReq) ∧ w.extractLsb' 4 2 = BitVec.ofNat 2 o.k ∧
    w.extractLsb' 6 2 = BitVec.ofNat 2 (phaseCode o.phase) ∧ w.extractLsb' 8 3 = BitVec.ofNat 3 o.moverNumber ∧
    w.extractLsb' 11 2 = BitVec.ofNat 2 (moverCode o.mover) ∧ w.extractLsb' 13 3 = 0 := by
  have h0 := bit_le_one (decide (o.dir = .opening))
  have h1 := bit_le_one (decide (o.mode = .auto))
  have h2 := bit_le_one (decide (o.origin = .remoteReq))
  have h3 := phaseCode_le o.phase
  have h4 := moverNumber_le o
  have h5 := moverCode_le o.mover
  have h6 : bit true = 1 := rfl
  simp only [orderWord, moverBits_eq]
  refine ⟨getLsbD_natWord (by decide) (by omega), getLsbD_natWord (by decide) (by omega), getLsbD_natWord (by decide) (by omega),
    getLsbD_natWord (by decide) (by omega), extract_natWord_eq (by decide) (by omega), extract_natWord_eq (by decide) (by omega),
    extract_natWord_eq (by decide) (by omega), extract_natWord_eq (by decide) (by omega),
    extract_natWord_eq (v := 0) (by decide) (by omega)⟩

/-! ## The request -/

section
variable {s : State} {x : Client} {p m : BitVec 4} {c : Chan}

/-- R177: selectors 0 to 14 answer the field of the channel named. -/
theorem exec_readPanel (ha : s.agenda = []) (hr : s.ready = true) (hp : chanOf p = some c) (hm : m ≠ 15) :
    exec (.readPanel x p m 0) s = .next (setReply x .done (s.panelField c m.toNat) (received x s)) := by
  refine serve_routed_of_answer ha hr ?_
  simp only [readPanel, ne_eq, not_true_eq_false, if_false, hm, hp]
  rfl

theorem exec_readPanel_supply (ha : s.agenda = []) (hr : s.ready = true) :
    exec (.readPanel x p 15 0) s = .next (setReply x .done (natWord s.sup.reading) (received x s)) :=
  serve_routed_of_answer ha hr rfl

theorem exec_readPanel_no_channel (ha : s.agenda = []) (hr : s.ready = true) (hp : chanOf p = none) (hm : m ≠ 15) :
    exec (.readPanel x p m 0) s = .next (setReply x .badArgument 0 (received x s)) := by
  refine serve_routed_of_answer ha hr ?_
  simp only [readPanel, ne_eq, not_true_eq_false, if_false, hm, hp]
  rfl

theorem msLeft_none : natWord (s.msLeft none) = 0 := rfl

theorem msLeft_some (d : Nat) : natWord (s.msLeft (some d)) = BitVec.ofNat 16 ((d - s.clock.now) / 1000) := rfl

end

end Sys2Proof.Machine
end

section
/-! Settles O19: READ PANEL, READ PARAMETER, READ PROFILE and READ GROUP (R60, R71, R143, R177). -/

namespace Sys2Proof.Machine

/-! ## READ PARAMETER (R60) -/

section
variable {s : State} {x : Client} {p m : BitVec 4} {c : Chan}

theorem exec_readParameter (ha : s.agenda = []) (hr : s.ready = true) (hp : chanOf p = some c) :
    exec (.readParameter x p m 0) s = .next (setReply x .done ((s.ch c).cal.param m.toNat) (received x s)) := by
  refine serve_routed_of_answer ha hr ?_
  simp only [readParameterRequest, ne_eq, not_true_eq_false, if_false, isPanel15_of_chanOf hp, Bool.false_eq_true, hp]
  rfl

theorem exec_readParameter_global (ha : s.agenda = []) (hr : s.ready = true) (hm : m.toNat < 9) :
    exec (.readParameter x 15 m 0) s = .next (setReply x .done (s.globalParam m.toNat) (received x s)) := by
  refine serve_routed_of_answer ha hr ?_
  have hpanel : isPanel15 15 = true := rfl
  simp only [readParameterRequest, ne_eq, not_true_eq_false, if_false, hpanel, if_true, if_neg (not_le.mpr hm)]
  rfl

theorem exec_readParameter_bad_selector (ha : s.agenda = []) (hr : s.ready = true) (hm : 9 ≤ m.toNat) :
    exec (.readParameter x 15 m 0) s = .next (setReply x .badArgument 0 (received x s)) := by
  refine serve_routed_of_answer ha hr ?_
  have hpanel : isPanel15 15 = true := rfl
  simp only [readParameterRequest, ne_eq, not_true_eq_false, if_false, hpanel, if_true, if_pos hm]
  rfl

theorem exec_readParameter_no_channel (ha : s.agenda = []) (hr : s.ready = true) (hp : chanOf p = none) (h15 : p ≠ 15) :
    exec (.readParameter x p m 0) s = .next (setReply x .badArgument 0 (received x s)) := by
  refine serve_routed_of_answer ha hr ?_
  have hpanel : isPanel15 p = false := by simpa [isPanel15] using h15
  simp only [readParameterRequest, ne_eq, not_true_eq_false, if_false, hpanel, Bool.false_eq_true, hp]
  rfl

theorem rightsWord_eq (r : Rights) : rightsWord r = r.panels ++ (0 : BitVec 3) ++ r.rights := by
  have hlow : ∀ v : BitVec 5, v.setWidth 8 = (0 : BitVec 3) ++ v := by decide
  rw [rightsWord, hlow]
  exact Eq.trans rfl (BitVec.append_assoc (x₁ := r.panels) (x₂ := (0 : BitVec 3)) (x₃ := r.rights)).symm

theorem extract_maskWord (v : BitVec 8) : (maskWord v).extractLsb' 8 8 = 0 := by
  have hv := v.isLt
  refine BitVec.eq_of_toNat_eq ?_
  simp [maskWord, Nat.shiftRight_eq_div_pow]
  omega

/-! ## READ PROFILE (R71) -/

theorem exec_readProfile {a : Word} (ha : s.agenda = []) (hr : s.ready = true) (hp : chanOf p = some c)
    (hpop : (s.ch c).cal.populated = true) {r : Result} {w : Word}
    (h : readProfile (s.ch c).cal m.toNat a.toNat (received x s) = ⟨r, w, received x s⟩) :
    exec (.readProfile x p m a) s = .next (setReply x r w (received x s)) := by
  refine serve_routed_of_answer ha hr ?_
  have hpop' : (received x s).populated c = true := hpop
  simp only [readProfileRequest, hp, hpop', if_true]
  exact h

theorem exec_readProfile_no_channel {a : Word} (ha : s.agenda = []) (hr : s.ready = true)
    (h : chanOf p = none ∨ chanOf p = some c ∧ (s.ch c).cal.populated = false) :
    exec (.readProfile x p m a) s = .next (setReply x .badArgument 0 (received x s)) := by
  refine serve_routed_of_answer ha hr ?_
  rcases h with hp | ⟨hp, hpop⟩
  · simp only [readProfileRequest, hp]
    rfl
  · have hpop' : (received x s).populated c = false := hpop
    simp only [readProfileRequest, hp, hpop', Bool.false_eq_true, if_false]
    rfl

variable {r : CalRecord} {n i : Nat}

theorem readProfile_band {bands : List Nat} (hb : r.profile = some bands) {b : Nat} (h : bands[i]? = some b) :
    readProfile r 0 i s = ⟨.done, natWord b, s⟩ := by simp only [readProfile, hb, h]

theorem readProfile_no_band {bands : List Nat} (hb : r.profile = some bands) (h : bands.length ≤ i) :
    readProfile r 0 i s = refuse .badArgument s := by
  simp only [readProfile, hb, List.getElem?_eq_none h]

theorem readProfile_no_profile (hb : r.profile = none) : readProfile r 0 i s = refuse .empty s := by
  simp only [readProfile, hb]

theorem readProfile_zone {z : Zone} (h : r.zones[i]? = some z) (h1 : 1 ≤ n) (h5 : n ≤ 5) :
    readProfile r n i s = ⟨.done, natWord (z.field n), s⟩ := by
  interval_cases n <;> simp [readProfile, h]

theorem readProfile_no_zone (h : r.zones.length ≤ i) (h1 : 1 ≤ n) (h5 : n ≤ 5) :
    readProfile r n i s = refuse .badArgument s := by
  have hnone := List.getElem?_eq_none h
  interval_cases n <;> simp [readProfile, hnone]

theorem readProfile_bad_modifier (h : 7 ≤ n) : readProfile r n i s = refuse .badArgument s := by
  obtain ⟨k, rfl⟩ := Nat.exists_eq_add_of_le' h
  simp [readProfile]

/-! ## READ GROUP (R143) -/

variable {a : Word} {g : Fin 4} {e : GroupEntry}

theorem exec_readGroup_bad (ha : s.agenda = []) (hr : s.ready = true) (h : groupIndex a.toNat = none ∨ p ≠ 15 ∨ 12 ≤ m.toNat) :
    exec (.readGroup x p m a) s = .next (setReply x .badArgument 0 (received x s)) := by
  refine serve_routed_of_answer ha hr ?_
  unfold readGroupRequest
  cases hg : groupIndex a.toNat with
  | none => rfl
  | some g =>
    have hbad : (!isPanel15 p || decide (12 ≤ m.toNat)) = true := by
      rcases h.resolve_left (by simp [hg]) with h | h
      · have hpanel : isPanel15 p = false := by simpa [isPanel15] using h
        rw [hpanel]
        rfl
      · simp [h]
    exact if_pos hbad

theorem exec_readGroup_free (ha : s.agenda = []) (hr : s.ready = true) (hg : groupIndex a.toNat = some g)
    (he : s.group g = none) (hm : m.toNat < 12) :
    exec (.readGroup x 15 m a) s = .next (setReply x .empty 0 (received x s)) := by
  refine serve_routed_of_answer ha hr ?_
  have he' : (received x s).group g = none := he
  have hgood : (!isPanel15 15 || decide (12 ≤ m.toNat)) = false := by simp [isPanel15, hm]
  simp only [readGroupRequest, hg, hgood, Bool.false_eq_true, if_false, he']
  rfl

theorem exec_readGroup (ha : s.agenda = []) (hr : s.ready = true) (hg : groupIndex a.toNat = some g)
    (he : s.group g = some e) (hm : m.toNat < 12) {res : Result} {w : Word}
    (h : (received x s).groupField e m.toNat = ⟨res, w, received x s⟩) :
    exec (.readGroup x 15 m a) s = .next (setReply x res w (received x s)) := by
  refine serve_routed_of_answer ha hr ?_
  have he' : (received x s).group g = some e := he
  have hgood : (!isPanel15 15 || decide (12 ≤ m.toNat)) = false := by simp [isPanel15, hm]
  simp only [readGroupRequest, hg, hgood, Bool.false_eq_true, if_false, he']
  exact h

theorem groupIndex_eq_none {n : Nat} (h : 3 < n) : groupIndex n = none := dif_neg (by omega)

/-- R143: modifiers 4 to 11 read one member's outcome. -/
theorem groupField_member {o : MemberOutcome} (h : e.members[c] = some o) :
    s.groupField e (4 + c.val) = ⟨.done, s.outcomeWord c o, s⟩ := by
  have hc : Fin.ofNat 8 (c.val + 4 - 4) = c := by simp
  rw [Nat.add_comm]
  simp only [State.groupField, hc, h]

theorem groupField_no_member (h : e.members[c] = none) : s.groupField e (4 + c.val) = refuse .empty s := by
  have hc : Fin.ofNat 8 (c.val + 4 - 4) = c := by simp
  rw [Nat.add_comm]
  simp only [State.groupField, hc, h]

theorem isFinal_getD (o : Option MemberOutcome) :
    (o.map MemberOutcome.isFinal).getD false = decide (o ≠ none ∧ o ≠ some .live ∧ o ≠ some .toJudge) := by
  cases o with
  | none => rfl
  | some o => cases o <;> simp [MemberOutcome.isFinal]

end

/-! ## The four requests -/

section
variable {s : State} {x : Client} {p m : BitVec 4} {a : Word} {c : Chan}

/-- READ PANEL, selector by selector. -/
theorem readPanel_answers (ha : s.agenda = []) (hr : s.ready = true) (hp : chanOf p = some c) (n : BitVec 4) (hn : n ≠ 15)
    {w : Word} (hw : s.panelField c n.toNat = w) :
    exec (.readPanel x p n 0) s = .next (setReply x .done w (received x s)) := hw ▸ exec_readPanel ha hr hp hn

/-- READ GROUP of an entry in use, modifier by modifier. -/
theorem readGroup_member {g : Fin 4} {e : GroupEntry} (ha : s.agenda = []) (hr : s.ready = true)
    (hg : groupIndex a.toNat = some g) (he : s.group g = some e) {o : MemberOutcome} (ho : e.members[c] = some o) {w : Word}
    (hw : s.outcomeWord c o = w) :
    exec (.readGroup x 15 (BitVec.ofNat 4 (4 + c.val)) a) s = .next (setReply x .done w (received x s)) := by
  have hc : (BitVec.ofNat 4 (4 + c.val)).toNat = 4 + c.val := by
    have := c.isLt
    rw [BitVec.toNat_ofNat]
    omega
  refine exec_readGroup ha hr hg he (by have := c.isLt; omega) ?_
  rw [hc, groupField_member ho, ← hw]
  rfl

end

/-- Settles O19: each request answers the word that its field spells. -/
theorem readsAnswerTheField : Obligations.ReadsAnswerTheField := by
  intro x p m a c s ha hr
  refine ⟨exec_readPanel_supply ha hr, exec_readPanel_no_channel ha hr, ?panel, ?parameter, ?global,
    exec_readParameter_no_channel ha hr, ?profile, ?group⟩
  case panel =>
    intro panel k msTo hp
    have hpanel (n : BitVec 4) (hn : n ≠ 15) {w : Word} (hw : s.panelField c n.toNat = w) : panel n w :=
      readPanel_answers ha hr hp n hn hw
    have hms (n : BitVec 4) (hn : n ≠ 15) (dl : Option Nat) (hf : s.panelField c n.toNat = natWord (s.msLeft dl)) :
        msTo n dl :=
      ⟨fun h => hpanel n hn (by rw [hf, h]; rfl), fun d h => hpanel n hn (by rw [hf, h]; rfl)⟩
    refine ⟨hpanel 0 (by decide) rfl, fun hnodup => ⟨_, hpanel 1 (by decide) rfl, ?_⟩,
      fun hk => ⟨_, hpanel 2 (by decide) rfl, ?_⟩, fun ho => ?_, fun o ho => ⟨?_, ?_, ?_, fun hk => ?_⟩, fun h => ?_, fun q h => ?_,
      hpanel 7 (by decide) rfl, hpanel 8 (by decide) rfl, hpanel 9 (by decide) rfl, hpanel 10 (by decide) rfl,
      hpanel 11 (by decide) rfl, hms 12 (by decide) _ rfl, hms 14 (by decide) _ rfl⟩
    · obtain ⟨h1, h2, h3, h4, h5⟩ := motionWord_fields (c := c) hnodup
      refine ⟨h1.trans ?_, h2.trans ?_, h3.trans ?_, h4.trans ?_, fun hc => h5.trans ?_, fun i hi => h5.trans ?_⟩
      · cases (s.ch c).moc.motion <;> rfl
      · cases (s.ch c).level <;> rfl
      · cases (s.ch c).hold <;> rfl
      · cases (s.ch c).moc.fault with
        | none => rfl
        | some f => cases f <;> rfl
      · rw [queuePlace_of_not_mem hc]
        rfl
      · rw [queuePlace_of_place hnodup hi]
    · obtain ⟨h0, h1, h2, h3, h4, h5, h6, h8, h12, hall, h14, h15⟩ := flagWord_fields (c := c) hk
      refine ⟨h0, h1, h2, h3, h4, h5, h6, h8.trans (by simp [k]), fun hno => hall.trans ?_, fun y hy => ⟨h12.trans ?_, h14.trans ?_⟩, h15⟩
      · rw [show (s.ch c).auth.lockouts = 0 from hno]
        rfl
      · rw [show (s.ch c).auth.lockouts = 1 <<< y.val from hy, firstClient_single]
        rfl
      · rw [show (s.ch c).auth.lockouts = 1 <<< y.val from hy, firstClient_single]
        rfl
    · have hno : (s.ch c).moc.order = none := ho
      exact ⟨hpanel 3 (by decide) (by simp [State.panelField, hno, orderWord]),
        hpanel 4 (by decide) (by simp [State.panelField, hno]), hpanel 5 (by decide) (by simp [State.panelField, hno]),
        hpanel 13 (by decide) (by simp [State.panelField, hno, State.msLeft, natWord])⟩
    · have ho' : (s.ch c).moc.order = some o := ho
      refine hpanel 4 (by decide) ?_
      change ((s.ch c).moc.order.map fun o => targetWord o.target).getD 0xFFFE = _
      rw [ho']
      change targetWord o.target = _
      cases o.target <;> rfl
    · have ho' : (s.ch c).moc.order = some o := ho
      exact hpanel 5 (by decide) (by simp [State.panelField, ho'])
    · have ho' : (s.ch c).moc.order = some o := ho
      exact hms 13 (by decide) _ (by simp [State.panelField, ho'])
    · have ho' : (s.ch c).moc.order = some o := ho
      obtain ⟨h0, h1, h2, h3, h4, h6, h8, h11, h13⟩ := orderWord_fields o hk
      refine ⟨_, hpanel 3 (by decide) (congrArg orderWord ho'), h0, h1, h2, h3, h4, h6.trans ?_, h8.trans ?_, h11.trans ?_, h13⟩
      · cases o.phase <;> rfl
      · unfold Order.moverNumber
        cases o.mover <;> rfl
      · cases o.mover <;> rfl
    · exact hpanel 6 (by decide) (by simp [State.panelField, show (s.ch c).moc.revTarget = none from h])
    · exact hpanel 6 (by decide) (by simp [State.panelField, show (s.ch c).moc.revTarget = some q from h, signedWord])
  case parameter =>
    intro reads r hp
    have hread (n v : Nat) (h : r.param n = natWord v) : reads n v := fun hm => by
      rw [exec_readParameter ha hr hp, hm]
      exact congrArg (fun w => Host.Outcome.next (setReply x .done w (received x s))) h
    refine ⟨hread 0 _ rfl, hread 1 _ rfl, hread 2 _ rfl, hread 3 _ rfl, hread 4 _ rfl, hread 5 _ rfl, hread 6 _ rfl, hread 7 _ rfl,
      hread 8 _ rfl, hread 9 _ rfl, hread 10 _ ?_, hread 11 _ ?_, hread 12 _ rfl, hread 13 _ rfl, hread 14 _ ?_, hread 15 _ rfl⟩
    · cases h : r.polarity <;> simp [CalRecord.param, h, bit]
    · cases h : r.companion <;> simp [CalRecord.param, h]
    · cases h : r.travel <;> simp [CalRecord.param, h]
  case global =>
    intro reads
    have hread (n : Nat) (hn : n < 9) (w : Word) (h : s.globalParam n = w) : reads n w := fun hm => by
      rw [exec_readParameter_global ha hr (by omega), hm, h]
    refine ⟨hread 0 (by decide) _ rfl, hread 1 (by decide) _ rfl, ⟨_, hread 2 (by decide) _ rfl, extract_maskWord _, fun d => ?_⟩,
      fun y => hread _ (by have := y.isLt; omega) _ ?_, hread 7 (by decide) _ (natWord_bit _), hread 8 (by decide) _ (natWord_bit _),
      exec_readParameter_bad_selector ha hr⟩
    · exact (getLsbD_maskWord s.populatedMask d).trans (getLsbD_maskWhere s.populated d)
    · rw [globalParam_rights, rightsWord_eq]
      rfl
  case profile =>
    intro answers
    refine ⟨fun hp => exec_readProfile_no_channel (c := c) ha hr (.inl hp), fun hp hpop => exec_readProfile_no_channel ha hr (.inr ⟨hp, hpop⟩),
      fun hp hpop => ?_⟩
    have hanswer (n : BitVec 4) (res : Result) (w : Word)
        (h : readProfile (s.ch c).cal n.toNat a.toNat (received x s) = ⟨res, w, received x s⟩) : answers n res w :=
      exec_readProfile ha hr hp hpop h
    refine ⟨fun bands hb => ⟨fun b h => hanswer 0 _ _ (readProfile_band hb h), fun h => hanswer 0 _ _ (readProfile_no_band hb h)⟩,
      fun hb => hanswer 0 _ _ (readProfile_no_profile hb),
      fun z hz => ⟨hanswer 1 _ _ (readProfile_zone hz (by decide) (by decide)), ?_,
        hanswer 3 _ _ (readProfile_zone hz (by decide) (by decide)), hanswer 4 _ _ (readProfile_zone hz (by decide) (by decide)),
        hanswer 5 _ _ (readProfile_zone hz (by decide) (by decide))⟩,
      fun hz h1 h5 => hanswer m _ _ (readProfile_no_zone hz h1 h5), hanswer 6 _ _ ?_,
      fun h7 => hanswer m _ _ (readProfile_bad_modifier h7)⟩
    · refine hanswer 2 _ _ ((readProfile_zone hz (by decide) (by decide)).trans ?_)
      simp only [Zone.field]
      cases z.kind <;> rfl
    · simp only [readProfile]
      cases (s.ch c).cal.travel <;> rfl
  case group =>
    intro answers n
    refine ⟨fun hm => exec_readGroup_bad ha hr (.inr (.inr hm)), fun h => exec_readGroup_bad ha hr (.inl (groupIndex_eq_none h)),
      fun hp => exec_readGroup_bad ha hr (.inr (.inl hp)), fun g hg he hm => exec_readGroup_free ha hr hg he hm, fun g e hg he => ?_⟩
    have hanswer (n : BitVec 4) (hn : n.toNat < 12) (res : Result) (w : Word)
        (h : (received x s).groupField e n.toNat = ⟨res, w, received x s⟩) : answers n res w :=
      exec_readGroup ha hr hg he hn h
    have hmember {o : MemberOutcome} (ho : e.members[c] = some o) {w : Word} (hw : s.outcomeWord c o = w) : answers n .done w :=
      readGroup_member ha hr hg he ho hw
    refine ⟨hanswer 0 (by decide) _ _ rfl, hanswer 1 (by decide) _ _ ?_, hanswer 2 (by decide) _ _ rfl, hanswer 3 (by decide) _ _ ?_,
      fun h => ?_, fun h => hmember h ?_, fun h => hmember h rfl, fun h => hmember h rfl, fun r h => hmember h ?_,
      fun o h => hmember h ?_, fun h => hmember h rfl⟩
    · simp [State.groupField, bit]
    · simp [State.groupField, isFinal_getD]
    · have hc : n.toNat = 4 + c.val := by
        have := c.isLt
        simp only [n, BitVec.toNat_ofNat]
        omega
      exact hanswer n (by have := c.isLt; omega) _ _ (by rw [hc, groupField_no_member h]; rfl)
    · simp only [State.outcomeWord]
      split <;> rfl
    · cases r <;> rfl
    · cases o <;> rfl

end Sys2Proof.Machine
end

section
/-! Settles O4: an idle step (R2, R3, R18) and what is due at a moment. -/

namespace Sys2Proof.Machine

/-! ## The Hall samples of a microsecond (R3) -/

/-- R3: the acceptances that the next sample of channel `c` makes. -/
def State.acceptances (s : State) (c : Chan) : List Instr :=
  if s.sampled c then ((filterSample s.pins.hall[c] (s.ch c).hif).2.map fun p => Instr.hallAcceptance c p).toList else []

/-- R3: what HIF holds for channel `c` after the next sample. -/
def State.sampledHif (s : State) (c : Chan) : Hif :=
  if s.sampled c then (filterSample s.pins.hall[c] (s.ch c).hif).1 else (s.ch c).hif

/-- R3: a sample moves the candidate and its count alone. -/
theorem sampledHif_eq (s : State) (c : Chan) : s.sampledHif c = { (s.ch c).hif with
    candidate := (s.sampledHif c).candidate, count := (s.sampledHif c).count } := by
  unfold State.sampledHif filterSample
  split
  · split
    · rfl
    · split
      · dsimp only
        split <;> rfl
      · rfl
  · rfl

theorem sampleHall_spec (s : State) (l : List Instr) (c : Chan) :
    sampleHall (s, l) c = (updHif c (fun _ => s.sampledHif c) s, l ++ s.acceptances c) := by
  unfold sampleHall State.sampledHif State.acceptances
  by_cases h : s.sampled c = true
  · simp [h]
  · have hid : updHif c (fun _ => (s.ch c).hif) s = s := by
      refine Eq.symm (eq_updChan (f := fun k => { k with hif := (s.ch c).hif }) rfl (.refl c s) rfl)
    simp [h, hid]

theorem foldl_sampleHall {l : List Chan} (hn : l.Nodup) (s : State) (acc : List Instr) :
    (l.foldl sampleHall (s, acc)).1 = { s with chans := (l.foldl sampleHall (s, acc)).1.chans } ∧
    (∀ d, (l.foldl sampleHall (s, acc)).1.ch d = if d ∈ l then { s.ch d with hif := s.sampledHif d } else s.ch d) ∧
    (l.foldl sampleHall (s, acc)).2 = acc ++ l.flatMap s.acceptances := by
  induction l generalizing s acc with
  | nil => simp
  | cons c l ih =>
    obtain ⟨hc, hl⟩ := List.nodup_cons.mp hn
    rw [List.foldl_cons, sampleHall_spec]
    obtain ⟨u, hu⟩ : ∃ u, u = updHif c (fun _ => s.sampledHif c) s := ⟨_, rfl⟩
    have hother {d : Chan} (hd : d ≠ c) : u.ch d = s.ch d := by rw [hu, updHif_eq, ch_updChan_ne (Ne.symm hd)]
    have hsame {d : Chan} (hd : d ≠ c) : u.sampled d = s.sampled d := by
      simp only [State.sampled, State.populated, hother hd]
      rw [hu]
      rfl
    have hpins : u.pins = s.pins := by rw [hu]; rfl
    rw [← hu]
    obtain ⟨ih1, ih2, ih3⟩ := ih hl u (acc ++ s.acceptances c)
    refine ⟨?_, fun d => ?_, ?_⟩
    · generalize (l.foldl sampleHall (u, acc ++ s.acceptances c)).1 = v at ih1 ⊢
      rw [ih1, hu]
      rfl
    · rw [ih2]
      by_cases hd : d = c
      · subst hd
        rw [if_neg hc, if_pos (List.mem_cons_self ..), hu, ch_updHif_self]
      · simp only [List.mem_cons, hd, false_or, hother hd, State.sampledHif, hsame hd, hpins]
    · have hrest : l.flatMap u.acceptances = l.flatMap s.acceptances := List.flatMap_congr fun d hd => by
        have hne : d ≠ c := fun e => hc (e ▸ hd)
        simp only [State.acceptances, hsame hne, hother hne, hpins]
      rw [ih3, hrest, List.flatMap_cons, List.append_assoc]

/-- R3: all eight channels. -/
theorem sampleHalls_spec (s : State) :
    (sampleHalls s).1 = { s with chans := (sampleHalls s).1.chans } ∧
    (∀ c, (sampleHalls s).1.ch c = { s.ch c with hif := s.sampledHif c }) ∧
    (sampleHalls s).2 = allChans.flatMap s.acceptances := by
  obtain ⟨h1, h2, h3⟩ := foldl_sampleHall allChans_nodup s []
  exact ⟨h1, fun c => (h2 c).trans (if_pos (mem_allChans c)), h3⟩

/-! ## A microsecond (R2) -/

theorem elapse_one_ms (s : State) (h : s.clock.msPhase < 999) :
    (elapse 1 s).clock.ms = s.clock.ms ∧ (elapse 1 s).clock.msPhase = s.clock.msPhase + 1 := by
  have hdiv : (s.clock.msPhase + 1) / 1000 = 0 := Nat.div_eq_of_lt (by omega)
  have hmod : (s.clock.msPhase + 1) % 1000 = s.clock.msPhase + 1 := Nat.mod_eq_of_lt (by omega)
  exact ⟨by simp [elapse, hdiv], hmod⟩

theorem elapse_one_ms_wrap (s : State) (h : s.clock.msPhase = 999) :
    (elapse 1 s).clock.ms = s.clock.ms + 1 ∧ (elapse 1 s).clock.msPhase = 0 := by
  simp [elapse, h]

/-! ## What is due -/

section
variable {s : State}

theorem mem_dueOn {i : Instr} {c : Chan} : i ∈ s.dueOn c ↔
    (due (s.ch c).moc.stall s.clock.now = true ∧ i = .stall c) ∨ (s.brakeDue c = true ∧ i = .brakeExpiry c) ∨
    (due (s.refreshDeadline c) s.clock.now = true ∧ i = .refreshDeadlineExpiry c) ∨
    (due (s.waitDeadline c) s.clock.now = true ∧ i = .waitDeadlineExpiry c) ∨
    (due (s.ch c).auth.window s.clock.now = true ∧ i = .overrideWindowExpiry c) := by
  simp only [State.dueOn, List.mem_append, mem_dueCommand, or_assoc]

theorem mem_dueNow {i : Instr} : i ∈ s.dueNow ↔
    (s.loadDue = true ∧ i = .startUpLoad) ∨ (s.takeDue = true ∧ i = .ldeTake) ∨
    (s.completionDue = true ∧ i = .ldeCompletion) ∨ (s.spacingDue = true ∧ i = .spacingTimerRunOut) ∨
    ((s.jobDue && !s.erasing) = true ∧ i = .storeCompletion (Config.readBackValid s.fresh)) ∨
    ((s.jobDue && s.erasing) = true ∧ i = .calEraseCompletion) ∨ (s.sectorDue = true ∧ i = .sectorSwitch) ∨
    (∃ c, i ∈ s.dueOn c) ∨ ∃ x, s.lapseDue x = true ∧ i = .lapseTimerExpiry x := by
  have hclients (x : Client) : x ∈ allClients := by revert x; decide
  simp only [State.dueNow, List.mem_append, mem_dueCommand, List.mem_flatMap, mem_allChans, hclients, true_and, or_assoc]

theorem due_iff {d : Option Nat} {now : Nat} : due d now = true ↔ ∃ n, d = some n ∧ n ≤ now := by
  cases d <;> simp [due]

theorem refreshDue_iff {c : Chan} : due (s.refreshDeadline c) s.clock.now = true ↔
    ∃ o d, (s.ch c).moc.order = some o ∧ o.mode = .manual ∧ o.refresh = some d ∧ d ≤ s.clock.now := by
  unfold State.refreshDeadline
  cases h : (s.ch c).moc.order with
  | none => simp [due]
  | some o => by_cases hm : o.mode = .manual <;> simp [due_iff, hm]

theorem waitDue_iff {c : Chan} : due (s.waitDeadline c) s.clock.now = true ↔
    ∃ d, (s.ch c).moc.motion = .waiting ∧ (s.ch c).moc.wait = some d ∧ d ≤ s.clock.now := by
  unfold State.waitDeadline
  by_cases h : (s.ch c).moc.motion = .waiting <;> simp [due_iff, h]

theorem spacingDue_iff : s.spacingDue = true ↔
    ∃ since, s.spacing = .armed since false ∧ since + 10000 * s.glob.ts ≤ s.clock.now := by
  unfold State.spacingDue
  split <;> simp_all

theorem ldeCompletion_mem : .ldeCompletion ∈ s.dueNow ↔ s.completionDue = true := by simp [mem_dueNow, mem_dueOn]

theorem jobDue_of {b : Busy} (h : s.nvc.busy = some b) (hd : b.done ≤ s.clock.now) : s.jobDue = true := by
  simp [State.jobDue, h, hd]

theorem completionDue_of {k : Take} (h : s.lde.busy = some k) (hd : k.since + 20 ≤ s.clock.now) : s.completionDue = true := by
  simp [State.completionDue, h, hd]

theorem sectorDue_iff : s.sectorDue = true ↔
    s.ready = true ∧ s.stb.mode = .polled ∧ s.stb.since + 1000 ≤ s.clock.now := by
  simp [State.sectorDue, and_assoc]

theorem erasing_iff {b : Busy} (h : s.nvc.busy = some b) : s.erasing = true ↔ b.job = .erase := by
  simp [State.erasing, h]

end

/-- The commands that a microsecond brings join the queue in some order. -/
theorem passMicrosecond_spec (s : State) : ∃ t, passMicrosecond s = t ∧
    t = { s with clock := (elapse 1 s).clock, chans := t.chans, fresh := t.fresh, pending := t.pending } ∧
    (∀ c, t.ch c = { s.ch c with hif := (elapse 1 s).sampledHif c }) ∧
    t.pending.Perm (s.pending ++ (allChans.flatMap (elapse 1 s).acceptances ++
      takeAtArrival (allChans.flatMap (elapse 1 s).acceptances) ++ (elapse 1 s).sampleSupply ++
      ({ s with clock := t.clock, chans := t.chans } : State).dueNow)) := by
  obtain ⟨hframe, hch, hacc⟩ := sampleHalls_spec (elapse 1 s)
  obtain ⟨u, hu⟩ : ∃ u, u = (sampleHalls (elapse 1 s)).1 := ⟨_, rfl⟩
  obtain ⟨l, hl⟩ : ∃ l, l = allChans.flatMap (elapse 1 s).acceptances ++
    takeAtArrival (allChans.flatMap (elapse 1 s).acceptances) ++ (elapse 1 s).sampleSupply ++ u.dueNow := ⟨_, rfl⟩
  rw [← hu] at hframe hch
  have huframe : u = { s with clock := (elapse 1 s).clock, chans := u.chans } := hframe
  have hsupply : u.sampleSupply = (elapse 1 s).sampleSupply := by rw [huframe]; rfl
  have hpass : passMicrosecond s = enqueue l u := by
    show enqueue ((sampleHalls (elapse 1 s)).2 ++ takeAtArrival (sampleHalls (elapse 1 s)).2 ++
      (sampleHalls (elapse 1 s)).1.sampleSupply ++ (sampleHalls (elapse 1 s)).1.dueNow) _ = _
    rw [hacc, ← hu, hsupply, ← hl]
  obtain ⟨m, hperm, hpending⟩ := pending_enqueue l u
  have hclock : u.clock = (elapse 1 s).clock := by rw [huframe]
  refine ⟨enqueue l u, hpass, ?_, hch, ?_⟩
  · show { u with pending := _, fresh := _ } = _
    rw [huframe]
    rfl
  · have hnow : ({ s with clock := u.clock, chans := u.chans } : State) = u := by rw [hclock]; exact huframe.symm
    show (enqueue l u).pending.Perm (_ ++ (_ ++ ({ s with clock := u.clock, chans := u.chans } : State).dueNow))
    have hsame : u.pending = s.pending := by rw [huframe]
    rw [hpending, hnow, ← hl, hsame]
    exact hperm.append_left _

theorem takeAtArrival_eq (l : List Instr) : takeAtArrival l = if l = [] then [] else [.ldeTake] := by
  cases l <;> rfl

theorem sampleSupply_eq (s : State) :
    (elapse 1 s).sampleSupply = if (s.clock.now + 1) % 500 = 0 then [Instr.supplySample s.pins.supply] else [] := by
  simp only [State.sampleSupply, dueCommand, decide_eq_true_iff]
  rfl

/-- Settles O4: the sampling fold and the clock for a microsecond; the queue takes a permutation of what is due. -/
theorem idleStepIsOneMicrosecond : Obligations.IdleStepIsOneMicrosecond := by
  intro s hp
  have hstep : step s = .next (tick s) := by simp only [step, hp]
  refine ⟨fun hnone => ?micro, fun hsome => ?events, fun c => ⟨?_, ?_, ?_, ?_, ?_⟩, fun x => ?_, ?_, ?_, ?_, fun k hk hdone => ?_,
    fun hr hnow => ?_, fun b hb hdone => ⟨fun he => ?_, fun he => ⟨Config.readBackValid s.fresh, ?_⟩⟩⟩
  case micro =>
    have htick : tick s = passMicrosecond s := by simp only [tick, hnone]
    obtain ⟨t, hpass, hframe, hch, hpending⟩ := passMicrosecond_spec s
    have hclock : t.clock = (elapse 1 s).clock := by rw [hframe]
    refine ⟨t, by rw [hstep, htick, hpass], by rw [hclock]; rfl, by rw [hclock]; rfl, fun h => ?_, fun h => ?_, ?_,
      fun c => ?_, fun c => ?_, ?_⟩
    · rw [hclock]
      exact elapse_one_ms s h
    · rw [hclock]
      exact elapse_one_ms_wrap s h
    · rw [hclock]
      exact hframe
    · rw [hch]
      exact congrArg (fun h => { s.ch c with hif := h }) (sampledHif_eq (elapse 1 s) c)
    · rw [hch]
      rfl
    · rw [hp, List.nil_append, takeAtArrival_eq, sampleSupply_eq] at hpending
      exact hpending
  case events =>
    have htick : tick s = enqueue s.dueNow s := by
      unfold tick
      split
      · exact absurd ‹_› hsome
      · rfl
    obtain ⟨m, hperm, hpending⟩ := pending_enqueue s.dueNow s
    refine ⟨enqueue s.dueNow s, by rw [hstep, htick], rfl, ?_⟩
    rw [hpending, hp]
    exact hperm
  · simp [mem_dueNow, mem_dueOn, due_iff]
  · simp [mem_dueNow, mem_dueOn, State.brakeDue]
  · simp [mem_dueNow, mem_dueOn, refreshDue_iff]
  · simp [mem_dueNow, mem_dueOn, waitDue_iff]
  · simp [mem_dueNow, mem_dueOn, due_iff]
  · simp [mem_dueNow, mem_dueOn, lapseDue_iff]
  · simp [mem_dueNow, mem_dueOn, spacingDue_iff]
  · simp [mem_dueNow, mem_dueOn, sectorDue_iff]
  · rw [ldeCompletion_mem]
    simp [mem_dueNow, mem_dueOn, takeDue_iff]
  · exact ldeCompletion_mem.mpr (completionDue_of hk hdone)
  · simp [mem_dueNow, State.loadDue, hr, hnow]
  · simp [mem_dueNow, jobDue_of hb hdone, (erasing_iff hb).mpr he]
  · have hne : s.erasing = false := Bool.eq_false_iff.mpr (mt (erasing_iff hb).mp he)
    simp [mem_dueNow, jobDue_of hb hdone, hne]

end Sys2Proof.Machine
end

section
/-! Settles O15: what a frame does to its link, the bits of the status byte (R173), and the wires of a link (R170). -/

namespace Sys2Proof.Machine

section
variable {x : Client} {s : State}

/-! ## The status byte (R173) -/

/-- R173: what the sum of the byte's fields is made of. -/
theorem statusByte_eq : s.statusByte x = BitVec.ofNat 8 (128 * bit s.ready + 64 * bit (s.attn x) +
    32 * bit (decide ((s.link x).lost ≠ 0)) + 16 * bit s.nvc.busy.isSome + 8 * bit s.glob.locked +
    2 * supplyCode s.sup.state + bit s.anyFault) := rfl

theorem supplyCode_le_three (p : SupplyState) : supplyCode p ≤ 3 := by cases p <;> decide

/-- R173: seven fields of a byte, each at its place. -/
theorem statusBits (a b c d e g : Bool) {p : Nat} (hp : p ≤ 3) :
    let v := BitVec.ofNat 8 (128 * bit a + 64 * bit b + 32 * bit c + 16 * bit d + 8 * bit e + 2 * p + bit g)
    v.getLsbD 7 = a ∧ v.getLsbD 6 = b ∧ v.getLsbD 5 = c ∧ v.getLsbD 4 = d ∧ v.getLsbD 3 = e ∧
      v.extractLsb' 1 2 = BitVec.ofNat 2 p ∧ v.getLsbD 0 = g := by
  have hsmall : p = 0 ∨ p = 1 ∨ p = 2 ∨ p = 3 := by omega
  revert a b c d e g
  rcases hsmall with rfl | rfl | rfl | rfl <;> decide

theorem attn_iff : s.attn x = decide ((s.link x).queue ≠ []) := by
  cases h : (s.link x).queue <;> simp [State.attn, h]

theorem anyFault_iff : s.anyFault = true ↔ ∃ c, (s.ch c).moc.motion = .fault := by
  simp [State.anyFault, mem_allChans]

theorem statusByte_setReply (r : Result) (d : Word) (u : State) : (setReply x r d u).statusByte x = u.statusByte x := by
  rw [statusByte_eq, statusByte_eq, attn_iff, attn_iff]
  simp [setReply]
  rfl

/-! ## A valid frame (R171, R172, R134) -/

theorem onlyLink_updLink (f : Link → Link) (s : State) : OnlyLink x s (updLink x f s) :=
  ⟨rfl, fun _ hy => link_updLink_ne (Ne.symm hy) ..⟩

theorem link_received : (received x s).link x = { s.link x with sent := s.nextReply x, lastFrame := s.clock.now, lapsed := false } := by
  simp [received, noteValidFrame, shiftReply]

theorem link_setReply (r : Result) (d : Word) (u : State) :
    (setReply x r d u).link x = { u.link x with reply := ⟨some (u.statusByte x), r, d⟩ } := by
  simp [setReply]

theorem statusByte_received : (received x s).statusByte x = s.statusByte x := by
  rw [statusByte_eq, statusByte_eq, attn_iff, attn_iff, link_received]
  rfl

/-! ## The wires (R170) -/

/-- R169: the status byte heads a reply frame. -/
theorem extract_replyFrame (st : Byte) (r : Result) (d : Word) : (replyFrame st r d).extractLsb' 32 8 = st := by
  rw [replyFrame, sealFrame]
  exact frameByte_one_frameOfBytes ..

/-- R172: the status byte that a reply shifts out. -/
theorem extract_nextReply : (s.nextReply x).extractLsb' 32 8 = (s.link x).reply.status.getD (s.statusByte x) :=
  extract_replyFrame ..

theorem updLink_congr {f g : Link → Link} (h : f (s.link x) = g (s.link x)) : updLink x f s = updLink x g s := by
  simp only [updLink]
  exact congrArg (fun l => { s with links := s.links.set x l }) h

/-- R170: the span of `s` has begun too soon after the previous rise. -/
def spanTooSoon (x : Client) (s : State) : Bool := ((selectFalls x s).link x).shifter.tooSoon

theorem spanTooSoon_iff : spanTooSoon x s = false ↔
    ∀ rise, (s.link x).shifter.lastRise = some rise → rise + 2 ≤ s.clock.now := by
  unfold spanTooSoon selectFalls
  rw [link_updLink_self]
  cases (s.link x).shifter.lastRise <;> simp

/-- R170, R172: the link at the end of the clocks of a span. -/
def spanLink (x : Client) (s : State) (bits : List Bool) : Link := { s.link x with
  reply := if bits = [] then (s.link x).reply else
    { (s.link x).reply with status := some ((s.link x).reply.status.getD (s.statusByte x)) }
  shifter := { (s.link x).shifter with
    selected := true, tooSoon := spanTooSoon x s, clocks := min 41 bits.length
    shiftIn := bits.foldl shiftBit 0, shiftOut := s.nextReply x } }

theorem span_eq (bits : List Bool) :
    bits.foldl (fun u b => clockLink x b u) (selectFalls x s) = updLink x (fun _ => spanLink x s bits) s := by
  have hfall : ∃ f, selectFalls x s = updLink x f s ∧ f (s.link x) = { s.link x with shifter := { (s.link x).shifter with
      selected := true, clocks := 0, shiftIn := 0, shiftOut := s.nextReply x, tooSoon := spanTooSoon x s } } := by
    refine ⟨_, rfl, ?_⟩
    rw [spanTooSoon, selectFalls, link_updLink_self]
  obtain ⟨f, hf, hl⟩ := hfall
  rw [clockLink_foldl, hf, updLink_updLink]
  refine updLink_congr ?_
  rw [hl, link_clock_foldl _ _ rfl (Nat.zero_le _)]
  by_cases h : bits = []
  · simp [spanLink, h]
  · have hkept : (s.link x).reply.status.getD ((s.link x).reply.status.getD (s.statusByte x)) =
        (s.link x).reply.status.getD (s.statusByte x) := by cases (s.link x).reply.status <;> rfl
    simp [spanLink, h, Link.keepStatus, extract_nextReply, hkept]

/-- R170: the link after the rise of select. -/
def risenLink (x : Client) (s : State) (bits : List Bool) : Link := { spanLink x s bits with
  shifter := { (spanLink x s bits).shifter with selected := false, lastRise := some s.clock.now } }

/-- R170: the rise that ends a span. -/
theorem rise_eq (bits : List Bool) :
    selectRises x (updLink x (fun _ => spanLink x s bits) s) = { updLink x (fun _ => risenLink x s bits) s with
      pending := s.pending ++ ((spanLink x s bits).shifter.frame x).toList } := by
  rw [selectRises_of_low (by rw [link_updLink_self]; rfl), updLink_updLink, link_updLink_self]
  rfl

/-- R170: exactly 40 clocks, in a span that began late enough, are a frame. -/
theorem frame_of_whole {bits : List Bool} (hlen : bits.length = 40) (hgap : spanTooSoon x s = false) :
    (spanLink x s bits).shifter.frame x = some (decodeFrame x (bits.foldl shiftBit 0)) := by
  simp [Shifter.frame, spanLink, hlen, hgap]

/-- R171: any other span with a clock is a frame error. -/
theorem frame_of_broken {bits : List Bool} (hne : bits ≠ []) (h : ¬ (bits.length = 40 ∧ spanTooSoon x s = false)) :
    (spanLink x s bits).shifter.frame x = some (.frameError x) := by
  have hpos : 0 < bits.length := List.length_pos_iff.mpr hne
  have hzero : min 41 bits.length ≠ 0 := by omega
  have hforty : min 41 bits.length = 40 ↔ bits.length = 40 := by omega
  have hclocks : (spanLink x s bits).shifter.clocks = min 41 bits.length := rfl
  rw [Shifter.frame, hclocks, if_neg hzero, if_neg fun k => h ⟨hforty.mp k.1, k.2⟩]

/-- R170: 40 bits shifted in, the first highest. -/
theorem bits_shifted {bits : List Bool} (h : bits.length = 40) (i : Nat) (hi : i < 40) :
    bits[i]? = some ((bits.foldl shiftBit (0 : BitVec 40)).getLsbD (39 - i)) := by
  have e : bits.length - 1 - (39 - i) = i := by omega
  rw [getLsbD_shifted _ _ _ (by omega), if_pos (by omega), e]
  obtain ⟨b, hb⟩ : ∃ b, bits[i]? = some b := ⟨_, List.getElem?_eq_getElem (by omega)⟩
  rw [hb]
  rfl

end

/-- Settles O15: a request touches its own link by `Owned`, and a span is one change of its link (`span_eq`, `rise_eq`). -/
theorem requestsTouchOneLink : Obligations.RequestsTouchOneLink := by
  intro x r d s
  obtain ⟨b7, b6, b5, b4, b3, b1, b0⟩ := statusBits s.ready (s.attn x) (decide ((s.link x).lost ≠ 0)) s.nvc.busy.isSome
    s.glob.locked s.anyFault (supplyCode_le_three s.sup.state)
  rw [← statusByte_eq] at b7 b6 b5 b4 b3 b1 b0
  have hlink : (setReply x r d (received x s)).link x = { s.link x with
      sent := s.nextReply x, lastFrame := s.clock.now, lapsed := false, reply := ⟨some (s.statusByte x), r, d⟩ } := by
    rw [link_setReply, link_received, statusByte_received]
  refine ⟨⟨rfl, fun y hy => by rw [link_setReply_ne (Ne.symm hy), link_received_ne (Ne.symm hy)]⟩, by rw [hlink], by rw [hlink],
    by rw [hlink], by rw [hlink], by rw [hlink], ?frameError, ?request, b7, b6.trans attn_iff, b5, b4, b3, b1.trans ?supply,
    (Bool.eq_iff_iff.mp b0).trans anyFault_iff, ?high, ?span⟩
  case frameError =>
    refine ⟨_, rfl, ⟨rfl, fun y hy => ?_⟩, ?_, fun code ha => serve_of_answer ha rfl⟩
    · rw [link_setReply_ne (Ne.symm hy), shiftReply, link_updLink_ne (Ne.symm hy)]
    · have hstatus : (shiftReply x s).statusByte x = s.statusByte x := by
        rw [statusByte_eq, statusByte_eq, attn_iff, attn_iff, shiftReply, link_updLink_self]
        rfl
      rw [link_setReply, hstatus, shiftReply, link_updLink_self]
  case request =>
    intro i code p m a t hf h
    obtain ⟨body, he, ho, -⟩ := exec_request hf
    rw [he s, serve_eq] at h
    cases h
    have hserves := (ho (received x s)).serves.acts (Acts.refl _).settle
    generalize settle (body (received x s)).state = u at hserves ⊢
    have hown := hserves.own
    rw [link_received] at hown
    rw [statusByte_setReply, link_setReply, hown]
    refine ⟨rfl, rfl, rfl, rfl, rfl, fun y hy => ?_⟩
    have hother := hserves.other y hy
    rw [link_received_ne (Ne.symm hy)] at hother
    rw [link_setReply_ne (Ne.symm hy)]
    exact hother
  case supply => cases s.sup.state <;> rfl
  case high => exact fun h => ⟨clockLink_of_high h, if_neg (by simp [h])⟩
  case span =>
    intro bits t u rightGap status
    have ht : t = updLink x (fun _ => spanLink x s bits) s := span_eq bits
    have hu : u = _ := (congrArg (selectRises x) ht).trans (rise_eq bits)
    have htl : t.link x = spanLink x s bits := by rw [ht, link_updLink_self]
    have hback : ({ u with pending := s.pending } : State) = updLink x (fun _ => risenLink x s bits) s := by
      rw [hu]
      rfl
    have hul : u.link x = risenLink x s bits := by
      rw [link_congr (s := { u with pending := s.pending }) (t := u) rfl x, hback, link_updLink_self]
    have hpending : u.pending = s.pending ++ ((spanLink x s bits).shifter.frame x).toList := by rw [hu]
    refine ⟨by rw [htl]; rfl, ht ▸ onlyLink_updLink _ s, by rw [ht]; rfl, ?_, by rw [hul]; rfl, by rw [hul]; rfl, ?_, ?_, ?_, ?_, ?_⟩
    · rw [htl]
      by_cases h : bits.length < 40
      · have hmin : min 41 bits.length = bits.length := by omega
        simp [Shifter.dataOut, spanLink, h, hmin]
      · have hmin : ¬ min 41 bits.length < 40 := by omega
        simp [Shifter.dataOut, spanLink, h, hmin]
    · rw [hback]
      exact onlyLink_updLink _ s
    · rw [hul]
      by_cases h : bits = [] <;> simp [risenLink, spanLink, h, status]
    · rintro rfl
      rw [hpending]
      exact List.append_nil _
    · intro hlen hgap
      refine ⟨_, fun i hi => bits_shifted hlen i hi, ?_⟩
      rw [hpending, frame_of_whole hlen (spanTooSoon_iff.mpr hgap)]
      rfl
    · intro hne hbad
      rw [hpending, frame_of_broken hne fun h => hbad.elim (· h.1) (· (spanTooSoon_iff.mp h.2))]
      rfl

end Sys2Proof.Machine
end

section
/-! What an action does to one channel, followed step by step: the channel it leaves (`Does`), and the records it posts,
in their order (`Posts`). -/

namespace Sys2Proof.Machine

/-! ## The records posted (R180, R181) -/

/-- R62, R180: client `y` is sent the record. -/
def State.hears (s : State) (e : Event) (y : Client) : Bool :=
  (e.chan.map s.populated).getD true && s.selects e y

/-- From `s` to `t` the records `es` were posted, in this order; who hears what stands. -/
structure Posts (s t : State) (es : List Event) : Prop where
  link : ∀ y, t.link y = (es.filter (s.hears · y)).foldl (fun l e => joinQueue e l) (s.link y)
  hears : ∀ e y, t.hears e y = s.hears e y

theorem hears_congr {s t : State} (hg : t.glob = s.glob) (hp : ∀ d, t.populated d = s.populated d)
    (hm : ∀ y, (t.link y).mask = (s.link y).mask) (e : Event) (y : Client) : t.hears e y = s.hears e y := by
  have hpop : t.populated = s.populated := funext hp
  have hmay : t.mayAct y = s.mayAct y := by unfold State.mayAct State.rights; rw [hg]
  unfold State.hears State.selects
  rw [hpop, hm, hmay]

theorem hears_iff {s : State} {y : Client} {k : EventKind} {c : Chan} {w d : Word} {ms : Word} (hk : k ≠ .clientLapse) :
    s.hears ⟨k, some c, w, d, ms⟩ y = true ↔ Hears s y k c := by
  simp [State.hears, State.selects, Hears, hk, and_comm]

theorem hears_none_iff {s : State} {y : Client} {k : EventKind} {w d : Word} {ms : Word} (hk : k ≠ .clientLapse) :
    s.hears ⟨k, none, w, d, ms⟩ y = true ↔ (s.link y).mask.getLsbD (eventCode k) = true := by
  simp [State.hears, State.selects, hk]

/-- What a link reads after a record was posted. -/
theorem link_post_hears (k : EventKind) (c : Option Chan) (w d : Word) (s : State) (y : Client) :
    (post k c w d s).link y =
      if s.hears ⟨k, c, w, d, s.clock.ms⟩ y then joinQueue ⟨k, c, w, d, s.clock.ms⟩ (s.link y) else s.link y := by
  cases c with
  | some c =>
    rw [link_post]
    simp [State.hears]
  | none =>
    rw [link_post_none]
    simp [State.hears]

namespace Posts
variable {s t u : State} {es fs : List Event}

theorem refl (s : State) : Posts s s [] := ⟨fun _ => rfl, fun _ _ => rfl⟩

theorem trans (h : Posts s t es) (k : Posts t u fs) : Posts s u (es ++ fs) := by
  refine ⟨fun y => ?_, fun e y => (k.hears e y).trans (h.hears e y)⟩
  have hsame : (fun e => t.hears e y) = fun e => s.hears e y := funext fun e => h.hears e y
  rw [k.link, h.link, List.filter_append, List.foldl_append, hsame]

/-- The links stand, and who hears what. -/
theorem of_links (h : Posts s u es) (hl : t.links = u.links) (hg : t.glob = u.glob)
    (hp : ∀ d, t.populated d = u.populated d) : Posts s t es := by
  have hlink (y : Client) : t.link y = u.link y := link_congr hl y
  exact ⟨fun y => (hlink y).trans (h.link y), fun e y =>
    (hears_congr hg hp (fun y => congrArg Link.mask (hlink y)) e y).trans (h.hears e y)⟩

theorem post (h : Posts s u es) (k : EventKind) (c : Option Chan) (w d : Word) :
    Posts s (post k c w d u) (es ++ [⟨k, c, w, d, u.clock.ms⟩]) := by
  refine h.trans ⟨fun y => ?_, hears_congr (by simp) (fun c => by simp [State.populated]) (fun y => by simp)⟩
  rw [link_post_hears]
  by_cases hh : u.hears ⟨k, c, w, d, u.clock.ms⟩ y = true <;> simp [hh]

/-- A queue into which at most 16 records came still holds each of them. -/
theorem mem_foldl_joinQueue {e : Event} {es : List Event} (he : e ∈ es) (hl : es.length ≤ 16) (l : Link) :
    e ∈ (es.foldl (fun l e => joinQueue e l) l).queue := by
  obtain ⟨before, after, rfl⟩ := List.append_of_mem he
  rw [List.foldl_append, List.foldl_cons]
  have follow (after : List Event) (n : Nat) (l : Link) (h : Recent n e l.queue) (hn : n + after.length ≤ 15) :
      Recent (n + after.length) e (after.foldl (fun l e => joinQueue e l) l).queue := by
    induction after generalizing n l with
    | nil => exact h
    | cons a after ih =>
      rw [List.length_cons] at hn
      have := ih (n + 1) (joinQueue a l) (h.joinQueue (by omega)) (by omega)
      rw [List.foldl_cons, List.length_cons]
      exact this.mono (by omega)
  refine (follow after 0 _ (Recent.joinQueue_self e _) ?_).mem
  simp at hl
  omega

/-- R180, R181: a record posted is in each queue that hears it, while no more than 16 were. -/
theorem mem (h : Posts s t es) {e : Event} (he : e ∈ es) (hl : es.length ≤ 16) {y : Client} (hh : s.hears e y = true) :
    e ∈ (t.link y).queue := by
  rw [h.link]
  exact mem_foldl_joinQueue (List.mem_filter.mpr ⟨he, hh⟩) ((List.length_filter_le ..).trans hl) _

theorem holds (h : Posts s t es) (hc : t.clock = s.clock) {k : EventKind} {c : Chan} {w d : Word}
    (he : ⟨k, some c, w, d, s.clock.ms⟩ ∈ es) (hl : es.length ≤ 16) {y : Client} (hh : Hears s y k c)
    (hk : k ≠ .clientLapse) : Holds t y k (some c) w d := by
  unfold Holds
  rw [hc]
  exact h.mem he hl ((hears_iff hk).mpr hh)

theorem holds_none (h : Posts s t es) (hc : t.clock = s.clock) {k : EventKind} {w d : Word}
    (he : ⟨k, none, w, d, s.clock.ms⟩ ∈ es) (hl : es.length ≤ 16) {y : Client}
    (hh : (s.link y).mask.getLsbD (eventCode k) = true) (hk : k ≠ .clientLapse) : Holds t y k none w d := by
  unfold Holds
  rw [hc]
  exact h.mem he hl ((hears_none_iff hk).mpr hh)

end Posts

/-! ## A channel whose drive turned off, or that was stopped (R82, R100) -/

/-- R82: the channel after its drive, if one was on, turned off at `now`. -/
def Channel.off (now : Nat) (k : Channel) : Channel :=
  if k.moc.motion.drive.isSome then
    { k with
      hif := { k.hif with drift := 0 }
      moc := { k.moc with stall := none, brakeRunning := true, brakeExpiry := now + 10000 * k.cal.brake } }
  else k

/-- R100, steps 1 to 4: the channel after it was stopped at `now`. -/
def Channel.stopped (now : Nat) (m : Motion) (k : Channel) : Channel :=
  { k.off now with
    hold := .none
    moc := { (k.off now).moc with slot := false, motion := m, order := none, wait := none, revTarget := none } }

section
variable {now : Nat} {m : Motion} {k : Channel}

theorem Channel.off_of_drive (h : k.moc.motion.drive ≠ none) : k.off now = { k with
    hif := { k.hif with drift := 0 }
    moc := { k.moc with stall := none, brakeRunning := true, brakeExpiry := now + 10000 * k.cal.brake } } :=
  if_pos (Option.isSome_iff_ne_none.mpr h)

theorem Channel.off_of_no_drive (h : k.moc.motion.drive = none) : k.off now = k := if_neg (by simp [h])

@[simp] theorem off_cal : (k.off now).cal = k.cal := by unfold Channel.off; split <;> rfl
@[simp] theorem off_auth : (k.off now).auth = k.auth := by unfold Channel.off; split <;> rfl
@[simp] theorem off_ctx : (k.off now).ctx = k.ctx := by unfold Channel.off; split <;> rfl
@[simp] theorem off_level : (k.off now).level = k.level := by unfold Channel.off; split <;> rfl
@[simp] theorem off_learning : (k.off now).learning = k.learning := by unfold Channel.off; split <;> rfl
@[simp] theorem off_hold : (k.off now).hold = k.hold := by unfold Channel.off; split <;> rfl
@[simp] theorem off_pos : (k.off now).hif.pos = k.hif.pos := by unfold Channel.off; split <;> rfl
@[simp] theorem off_posValid : (k.off now).hif.posValid = k.hif.posValid := by unfold Channel.off; split <;> rfl
@[simp] theorem off_motion : (k.off now).moc.motion = k.moc.motion := by unfold Channel.off; split <;> rfl
@[simp] theorem off_order : (k.off now).moc.order = k.moc.order := by unfold Channel.off; split <;> rfl
@[simp] theorem off_slot : (k.off now).moc.slot = k.moc.slot := by unfold Channel.off; split <;> rfl
@[simp] theorem off_wait : (k.off now).moc.wait = k.moc.wait := by unfold Channel.off; split <;> rfl
@[simp] theorem off_revTarget : (k.off now).moc.revTarget = k.moc.revTarget := by unfold Channel.off; split <;> rfl
@[simp] theorem off_fault : (k.off now).moc.fault = k.moc.fault := by unfold Channel.off; split <;> rfl
@[simp] theorem off_latched : (k.off now).moc.latched = k.moc.latched := by unfold Channel.off; split <;> rfl
@[simp] theorem off_noStep : (k.off now).moc.noStep = k.moc.noStep := by unfold Channel.off; split <;> rfl
@[simp] theorem off_steps : (k.off now).moc.steps = k.moc.steps := by unfold Channel.off; split <;> rfl

@[simp] theorem stopped_cal : (k.stopped now m).cal = k.cal := off_cal
@[simp] theorem stopped_auth : (k.stopped now m).auth = k.auth := off_auth
@[simp] theorem stopped_ctx : (k.stopped now m).ctx = k.ctx := off_ctx
@[simp] theorem stopped_level : (k.stopped now m).level = k.level := off_level
@[simp] theorem stopped_learning : (k.stopped now m).learning = k.learning := off_learning
@[simp] theorem stopped_hif : (k.stopped now m).hif = (k.off now).hif := rfl
@[simp] theorem stopped_hold : (k.stopped now m).hold = .none := rfl
@[simp] theorem stopped_motion : (k.stopped now m).moc.motion = m := rfl
@[simp] theorem stopped_order : (k.stopped now m).moc.order = none := rfl
@[simp] theorem stopped_slot : (k.stopped now m).moc.slot = false := rfl
@[simp] theorem stopped_wait : (k.stopped now m).moc.wait = none := rfl
@[simp] theorem stopped_revTarget : (k.stopped now m).moc.revTarget = none := rfl
@[simp] theorem stopped_stall : (k.stopped now m).moc.stall = (k.off now).moc.stall := rfl
@[simp] theorem stopped_brakeRunning : (k.stopped now m).moc.brakeRunning = (k.off now).moc.brakeRunning := rfl
@[simp] theorem stopped_brakeExpiry : (k.stopped now m).moc.brakeExpiry = (k.off now).moc.brakeExpiry := rfl
@[simp] theorem stopped_fault : (k.stopped now m).moc.fault = k.moc.fault := off_fault
@[simp] theorem stopped_latched : (k.stopped now m).moc.latched = k.moc.latched := off_latched
@[simp] theorem stopped_noStep : (k.stopped now m).moc.noStep = k.moc.noStep := off_noStep

end

/-! ## The group entries that stand -/

/-- How many entries of the group table are taken. -/
def State.openGroups (s : State) : Nat := (List.finRange 4).countP fun g => (s.group g).isSome

/-- How many of the records are GROUP_DONE. -/
def doneCount (es : List Event) : Nat := es.countP fun e => e.kind = .groupDone

theorem doneCount_append (es fs : List Event) : doneCount (es ++ fs) = doneCount es + doneCount fs := List.countP_append

theorem openGroups_le (s : State) : s.openGroups ≤ 4 := List.countP_le_length

theorem openGroups_congr {s t : State} (h : t.groups = s.groups) : t.openGroups = s.openGroups := by
  simp only [State.openGroups, State.group, h]

/-! ## What an action does to channel `c` -/

/-- From `s` to `t` channel `c` alone changed, and is `k`; the start queue is `q`, the records `es` were posted, each GROUP_DONE
for an entry it freed; of the rest the agenda and the group table alone may differ. -/
structure Does (c : Chan) (s t : State) (k : Channel) (q : List Chan) (es : List Event) : Prop where
  self : t.ch c = k
  other : OnlyChannel c s t
  queue : t.startQueue = q
  spacing : t.spacing = s.spacing
  device : SameDevice s t
  posts : Posts s t es
  freed : doneCount es + t.openGroups ≤ s.openGroups

namespace Does
variable {c : Chan} {s t u : State} {k k' : Channel} {q q' : List Chan} {es fs : List Event}

theorem refl (c : Chan) (s : State) : Does c s s (s.ch c) s.startQueue [] :=
  ⟨rfl, .refl c s, rfl, rfl, .refl s, .refl s, by simp [doneCount]⟩

theorem trans (h : Does c s t k q es) (j : Does c t u k' q' fs) : Does c s u k' q' (es ++ fs) :=
  ⟨j.self, h.other.trans j.other, j.queue, j.spacing.trans h.spacing, h.device.trans j.device, h.posts.trans j.posts, by
    have h1 := h.freed
    have h2 := j.freed
    rw [doneCount_append]
    omega⟩

theorem clock (h : Does c s u k q es) : u.clock = s.clock := h.device.1
theorem glob (h : Does c s u k q es) : u.glob = s.glob := by
  obtain ⟨-, -, -, -, hg, -⟩ := h.device
  exact hg
theorem sup (h : Does c s u k q es) : u.sup = s.sup := by
  obtain ⟨-, -, hs, -⟩ := h.device
  exact hs

/-- A step that touches, beside the agenda, channel `c` and the start queue alone. -/
theorem local_ (h : Does c s u k q es) (hself : t.ch c = k') (ho : OnlyChannel c u t) (hd : SameDevice u t)
    (hq : t.startQueue = q') (hsp : t.spacing = u.spacing) (hl : t.links = u.links) (hg : t.groups = u.groups)
    (hp : k'.cal.populated = k.cal.populated) : Does c s t k' q' es := by
  refine ⟨hself, h.other.trans ho, hq, hsp.trans h.spacing, h.device.trans hd, h.posts.of_links hl ?_ fun d => ?_, ?_⟩
  · obtain ⟨-, -, -, -, hglob, -⟩ := hd
    exact hglob
  · by_cases e : d = c
    · subst e
      rw [State.populated, State.populated, hself, h.self, hp]
    · rw [State.populated, State.populated, ho d e]
  · rw [openGroups_congr hg]
    exact h.freed

theorem updChan (h : Does c s u k q es) (f : Channel → Channel) (hp : (f k).cal.populated = k.cal.populated) :
    Does c s (updChan c f u) (f k) q es :=
  h.local_ (by rw [ch_updChan_self, h.self]) (onlyChannel_updChan c _ u) (sameDevice_updChan c _ u) h.queue rfl rfl rfl hp

theorem updMoc (h : Does c s u k q es) (f : Moc → Moc) : Does c s (updMoc c f u) { k with moc := f k.moc } q es :=
  h.updChan _ rfl
theorem updHif (h : Does c s u k q es) (f : Hif → Hif) : Does c s (updHif c f u) { k with hif := f k.hif } q es :=
  h.updChan _ rfl
theorem updAuth (h : Does c s u k q es) (f : Auth → Auth) : Does c s (updAuth c f u) { k with auth := f k.auth } q es :=
  h.updChan _ rfl
theorem updCtx (h : Does c s u k q es) (f : LoadContext → LoadContext) :
    Does c s (updCtx c f u) { k with ctx := f k.ctx } q es := h.updChan _ rfl
theorem updLearning (h : Does c s u k q es) (f : Learning → Learning) :
    Does c s (updLearning c f u) { k with learning := f k.learning } q es := h.updChan _ rfl
theorem setHold (h : Does c s u k q es) (x : Hold) : Does c s (setHold c x u) { k with hold := x } q es := h.updChan _ rfl
theorem updCal (h : Does c s u k q es) (f : CalRecord → CalRecord) (hp : (f k.cal).populated = k.cal.populated) :
    Does c s (updCal c f u) { k with cal := f k.cal } q es := h.updChan _ hp

/-- What is left to be done later changes nothing of this. -/
theorem agenda (h : Does c s u k q es) (a : List Task) : Does c s { u with agenda := a } k q es :=
  h.local_ h.self (fun _ _ => rfl) (by simp [SameDevice]) h.queue rfl rfl rfl rfl

theorem push (h : Does c s u k q es) (t : Task) : Does c s (push t u) k q es := h.agenda _

theorem notifyFollower (h : Does c s u k q es) (p : Chan) : Does c s (notifyFollower p u) k q es := by
  rw [notifyFollower_eq]
  exact h.agenda _

theorem noteEnd (h : Does c s u k q es) (d : Chan) (own : Option Chan) (ok : Bool) : Does c s (noteEnd d own ok u) k q es := by
  rw [noteEnd_eq]
  exact h.agenda _

theorem noteMoved (h : Does c s u k q es) (d : Chan) : Does c s (noteMoved d u) k q es := h.push _

theorem setPosition (h : Does c s u k q es) (x : Int) (v : Bool) :
    Does c s (setPosition c x v u) { k with hif := { k.hif with pos := x, posValid := v } } q es :=
  (h.updHif _).notifyFollower c

theorem driveOff (h : Does c s u k q es) : Does c s (driveOff c u) (k.off s.clock.now) q es := by
  obtain ⟨hother, hframe, hself⟩ := driveOff_spec c u
  refine h.local_ ?_ hother (by rw [hframe]; simp [SameDevice]) (by rw [hframe]; exact h.queue) (by rw [hframe])
    (by rw [hframe]) (by rw [hframe]) (congrArg CalRecord.populated off_cal)
  rw [hself, State.driveIsOn, h.self, h.clock]
  rfl

theorem releaseSlot (h : Does c s u k q es) :
    Does c s (releaseSlot c u) { k with moc := { k.moc with slot := false } } q es := by
  obtain ⟨hother, hself, hframe, -⟩ := releaseSlot_spec c u
  refine h.local_ (by rw [hself, h.self]) hother (by rw [hframe]; simp [SameDevice]) (by rw [hframe]; exact h.queue)
    (by rw [hframe]) (by rw [hframe]) (by rw [hframe]) rfl

theorem leaveQueue (h : Does c s u k q es) : Does c s (leaveQueue c u) k (q.filter (· ≠ c)) es :=
  h.local_ h.self (fun _ _ => rfl) (by simp [SameDevice, Machine.leaveQueue]) (by rw [leaveQueue_startQueue, h.queue]) rfl rfl
    rfl rfl

theorem stopChannel (h : Does c s u k q es) (m : Motion) :
    Does c s (stopChannel c m u) (k.stopped s.clock.now m) (q.filter (· ≠ c)) es :=
  ((h.driveOff.releaseSlot.leaveQueue).updMoc _).setHold _

theorem joinStartQueue (h : Does c s u k q es) : Does c s (joinStartQueue c u) { k with moc := { k.moc with motion := .queued } }
    (joinStartQueue c u).startQueue es := by
  obtain ⟨hself, hother, hdevice, -, hlinks, hgroups, -⟩ := joinStartQueue_spec c u
  exact h.local_ (by rw [hself, h.self]) hother hdevice rfl rfl hlinks hgroups rfl

/-- R180: one more record, about `c`. -/
theorem post (h : Does c s u k q es) (e : EventKind) (w d : Word) (he : e ≠ .groupDone) :
    Does c s (post e (some c) w d u) k q (es ++ [⟨e, some c, w, d, s.clock.ms⟩]) := by
  refine ⟨by rw [ch_post, h.self], h.other.trans fun _ _ => by rw [ch_post], by rw [post_startQueue, h.queue],
    by rw [post_spacing, h.spacing], h.device.trans (onlyLinks_post ..).sameDevice, ?_, ?_⟩
  · have hp := h.posts.post e (some c) w d
    rwa [h.clock] at hp
  · have hdone : doneCount [(⟨e, some c, w, d, s.clock.ms⟩ : Event)] = 0 := by simp [doneCount, he]
    rw [doneCount_append, hdone, openGroups_congr (post_groups ..)]
    exact h.freed

theorem postAt (h : Does c s u k q es) (e : EventKind) (x : Int) (d : Word) (he : e ≠ .groupDone) :
    Does c s (postAt e c x d u) k q (es ++ [⟨e, some c, signedWord x, d, s.clock.ms⟩]) := h.post e _ d he

/-- R155: a level that changes is posted. -/
theorem setLevel_ne (h : Does c s u k q es) {l : Level} (hl : k.level ≠ l) (x : Int) : Does c s (setLevel c l x u)
    { k with level := l } q (es ++ [⟨.levelChanged, some c, signedWord x, natWord (levelCode l), s.clock.ms⟩]) := by
  rw [Machine.setLevel, if_neg (by rwa [h.self])]
  exact (h.updChan (fun k => { k with level := l }) rfl).postAt .levelChanged x _ (by decide)

theorem setLevel_same (h : Does c s u k q es) {l : Level} (hl : k.level = l) (x : Int) : Does c s (setLevel c l x u) k q es := by
  rw [Machine.setLevel, if_pos (by rwa [h.self])]
  exact h

/-! ## The reports to GRP (R140, R141) -/

/-- The records are GROUP_DONE. -/
def Dones (ds : List Event) : Prop := ∀ e ∈ ds, e.kind = .groupDone ∧ e.chan = none

theorem dones_nil : Dones [] := fun _ h => nomatch h
theorem dones_append {ds es : List Event} (h : Dones ds) (k : Dones es) : Dones (ds ++ es) := fun e he =>
  (List.mem_append.mp he).elim (h e) (k e)

theorem dones_length {ds : List Event} (h : Dones ds) : ds.length = doneCount ds := by
  refine (List.countP_eq_length.mpr fun e he => ?_).symm
  simp [(h e he).1]

/-- A group table with an entry that was there replaced. -/
theorem openGroups_setGroup_some {g : Fin 4} {e e' : GroupEntry} (h : u.group g = some e) :
    (setGroup g (some e') u).openGroups = u.openGroups := by
  refine List.countP_congr fun g' _ => ?_
  rw [group_setGroup]
  by_cases hg : g = g'
  · subst hg
    simp [h]
  · simp [hg]

/-- R141: freeing an entry. -/
theorem openGroups_setGroup_none {g : Fin 4} {e : GroupEntry} (h : u.group g = some e) :
    (setGroup g none u).openGroups + 1 = u.openGroups := by
  have hcount : ∀ f : Fin 4 → Bool, f g = true →
      (List.finRange 4).countP (fun g' => if g = g' then false else f g') + 1 = (List.finRange 4).countP f := by
    clear h
    revert g
    decide
  have hthis := hcount (fun g' => (u.group g').isSome) (by simp [h])
  rw [State.openGroups, State.openGroups, ← hthis]
  refine congrArg (· + 1) (List.countP_congr fun g' _ => ?_)
  rw [group_setGroup]
  split <;> simp

/-- A step that replaces an entry of the group table. -/
theorem setGroup_some (h : Does c s u k q es) {g : Fin 4} {e : GroupEntry} (hg : u.group g = some e) (e' : GroupEntry) :
    Does c s (setGroup g (some e') u) k q es := by
  refine ⟨h.self, h.other, h.queue, h.spacing, h.device, h.posts.of_links rfl rfl fun _ => rfl, ?_⟩
  rw [openGroups_setGroup_some hg]
  exact h.freed

/-- R141: a complete entry is freed with its GROUP_DONE. -/
theorem freeEntry (h : Does c s u k q es) {g : Fin 4} {e : GroupEntry} (he : u.group g = some e) (hc : e.complete = true) :
    Does c s (Machine.finishGroup g u) k q (es ++ [⟨.groupDone, none, maskWord e.missed, bytesWord g.val e.serial, s.clock.ms⟩]) := by
  have heq : Machine.finishGroup g u =
      setGroup g none (Machine.post .groupDone none (maskWord e.missed) (bytesWord g.val e.serial) u) := by
    simp [Machine.finishGroup, he, hc]
  rw [heq]
  have hp := h.posts.post .groupDone none (maskWord e.missed) (bytesWord g.val e.serial)
  rw [h.clock] at hp
  have hframe := onlyLinks_post .groupDone none (maskWord e.missed) (bytesWord g.val e.serial) u
  generalize Machine.post .groupDone none (maskWord e.missed) (bytesWord g.val e.serial) u = v at hp hframe ⊢
  have hv : v.group g = some e := by rw [hframe]; exact he
  refine ⟨by rw [← h.self]; exact hframe.ch c, h.other.trans (hframe.onlyChannel c), ?_, ?_,
    h.device.trans hframe.sameDevice, hp.of_links rfl rfl fun _ => rfl, ?_⟩
  · rw [← h.queue, hframe]
    rfl
  · rw [← h.spacing, hframe]
    rfl
  · have hsame : v.openGroups = u.openGroups := openGroups_congr (by rw [hframe])
    have hless := openGroups_setGroup_none hv
    have hfreed := h.freed
    rw [doneCount_append]
    have hone : doneCount [(⟨.groupDone, none, maskWord e.missed, bytesWord g.val e.serial, s.clock.ms⟩ : Event)] = 1 := rfl
    omega

theorem finishGroup (h : Does c s u k q es) (g : Fin 4) :
    ∃ ds, Dones ds ∧ Does c s (finishGroup g u) k q (es ++ ds) := by
  have stand : ∃ ds, Dones ds ∧ Does c s u k q (es ++ ds) := ⟨[], dones_nil, by rw [List.append_nil]; exact h⟩
  cases he : u.group g with
  | none =>
    simp only [Machine.finishGroup, he]
    exact stand
  | some e =>
    cases hc : e.complete with
    | true => exact ⟨_, by simp [Dones], h.freeEntry he hc⟩
    | false =>
      simp only [Machine.finishGroup, he, hc]
      exact stand

theorem recordMember (h : Does c s u k q es) (g : Fin 4) (d : Chan) (o : MemberOutcome) :
    ∃ ds, Dones ds ∧ Does c s (recordMember g d o u) k q (es ++ ds) := by
  have stand : ∃ ds, Dones ds ∧ Does c s u k q (es ++ ds) := ⟨[], dones_nil, by rw [List.append_nil]; exact h⟩
  unfold Machine.recordMember
  split
  · next e he =>
    split
    · exact (h.setGroup_some he _).finishGroup g
    · exact stand
  · exact stand

/-- R140: the report of an order's end; an order that no group installed is no member's. -/
theorem reportGroup (h : Does c s u k q es) (d : Chan) (o : Order) (e : OrderEnd) :
    ∃ ds, Dones ds ∧ ((∀ g, o.mover ≠ .group g) → ds = []) ∧ Does c s (reportGroup d o e u) k q (es ++ ds) := by
  have stand : ∃ ds, Dones ds ∧ ((∀ g, o.mover ≠ .group g) → ds = []) ∧ Does c s u k q (es ++ ds) :=
    ⟨[], dones_nil, fun _ => rfl, by rw [List.append_nil]; exact h⟩
  unfold Machine.reportGroup
  split
  · next g hg =>
    split
    · split
      · exact stand
      · obtain ⟨ds, hds, hdoes⟩ := h.recordMember g d _
        exact ⟨ds, hds, fun hc => absurd hg (hc g), hdoes⟩
    · exact stand
  · exact stand

theorem reportGroupReversal (h : Does c s u k q es) (d : Chan) (e : RevEnd) :
    ∃ ds, Dones ds ∧ Does c s (reportGroupReversal d e u) k q (es ++ ds) := by
  unfold Machine.reportGroupReversal
  generalize ([0, 1, 2, 3] : List (Fin 4)) = l
  induction l generalizing u es with
  | nil => exact ⟨[], dones_nil, by rw [List.append_nil]; exact h⟩
  | cons g l ih =>
    obtain ⟨ds, hds, hdoes⟩ := h.recordMember g d (memberRevEnd e)
    obtain ⟨ds', hds', hdoes'⟩ := ih hdoes
    exact ⟨ds ++ ds', dones_append hds hds', by rwa [← List.append_assoc]⟩

/-! ## The reports to NRM (R165, R167) -/

theorem learnFailed (h : Does c s u k q es) (kind : RunKind) (r : LearnFail) (e : OrderEnd) (x : Int) :
    Does c s (learnFailed c kind r e x u) { k with learning := noLearning } q
      (es ++ [⟨.learnFailed, some c, signedWord x, learnFailedDetail r kind e, s.clock.ms⟩]) :=
  (h.postAt .learnFailed x _ (by decide)).updLearning _

theorem learnDone (h : Does c s u k q es) (kind : RunKind) (x : Int) :
    Does c s (learnDone c kind x u) { k with learning := noLearning } q
      (es ++ [⟨.learnDone, some c, signedWord x, learnDoneDetail kind, s.clock.ms⟩]) :=
  (h.postAt .learnDone x _ (by decide)).updLearning _

/-- R167: an end that completes no run fails the one that the order is of, with the mark or the end's own reason. -/
theorem reportLearning_of_run (h : Does c s u k q es) {o : Order} (hm : o.mover = .learn) {kind : RunKind}
    (hk : k.learning.kind = some kind) {e : OrderEnd} (he : e ≠ .openEnd) (he' : e ≠ .closedEnd) (x : Int) :
    Does c s (reportLearning c o e x u) { k with learning := noLearning } q
      (es ++ [⟨.learnFailed, some c, signedWord x, learnFailedDetail (k.learning.mark.getD (failReason e)) kind e,
        s.clock.ms⟩]) := by
  have hlearning : (u.ch c).learning = k.learning := by rw [h.self]
  unfold Machine.reportLearning
  rw [hm, hlearning, hk]
  dsimp only
  split
  · next r hr =>
    rw [hr]
    exact h.learnFailed ..
  · next hr =>
    rw [if_neg fun hh => he hh.2, if_neg fun hh => he' hh.2, hr]
    exact h.learnFailed ..

/-- R167: without a run of NRM there is nothing to report. -/
theorem reportLearning_of_no_run (h : Does c s u k q es) {o : Order} (hm : o.mover ≠ .learn ∨ k.learning.kind = none)
    (e : OrderEnd) (x : Int) : Does c s (reportLearning c o e x u) k q es := by
  have hlearning : (u.ch c).learning = k.learning := by rw [h.self]
  unfold Machine.reportLearning
  split
  · next hm' hk =>
    rw [hlearning] at hk
    exact absurd hm (by simp [hm', hk])
  · exact h

/-! ## The take in progress (R31) -/

/-- Nothing of this looks at LDE. -/
theorem withLde (h : Does c s u k q es) (l : Lde) : Does c { s with lde := l } { u with lde := l } k q es := by
  obtain ⟨h1, h2, h3, -, h5⟩ := h.device
  exact ⟨h.self, h.other, h.queue, h.spacing, ⟨h1, h2, h3, rfl, h5⟩, ⟨h.posts.link, h.posts.hears⟩, h.freed⟩

theorem dropTake (h : Does c s u k q es) : ∃ l, Does c { s with lde := l } (dropTake c u) k q es := by
  refine ⟨(Machine.dropTake c u).lde, ?_⟩
  have hd := h.withLde (Machine.dropTake c u).lde
  rwa [← dropTake_eq] at hd

end Does

end Sys2Proof.Machine
end

section
/-! The ends of orders and reversals and the entry into FAULT (R94, R98, R100), as what they do to their channel. -/

namespace Sys2Proof.Machine

/-- R100, step 5: MOVE_ENDED of `c` at position `x`, posted at `ms`. -/
def endRecord (c : Chan) (x : Int) (e : OrderEnd) (ms : Word) : Event :=
  ⟨.moveEnded, some c, signedWord x, natWord (orderEndCode e), ms⟩

/-- R94: REVERSAL_END. -/
def revRecord (c : Chan) (x : Int) (e : RevEnd) (ms : Word) : Event :=
  ⟨.reversalEnd, some c, signedWord x, natWord (revEndCode e), ms⟩

/-- R98: CHANNEL_FAULT. -/
def faultRecord (c : Chan) (x : Int) (r : FaultReason) (ms : Word) : Event :=
  ⟨.channelFault, some c, signedWord x, natWord (faultCode (some r)), ms⟩

/-- R167: LEARN_FAILED of a run that ended with outcome `e`. -/
def learnRecord (c : Chan) (x : Int) (l : Learning) (kind : RunKind) (e : OrderEnd) (ms : Word) : Event :=
  ⟨.learnFailed, some c, signedWord x, learnFailedDetail (l.mark.getD (failReason e)) kind e, ms⟩

/-- R167: the learning run that an order is of. -/
def Order.runOf (o : Order) (l : Learning) : Option RunKind := if o.mover = .learn then l.kind else none

/-- R167: the learning record that a failing end of the order leaves. -/
def Order.leaves (o : Order) (l : Learning) : Learning := if (o.runOf l).isSome then noLearning else l

/-- R167: the report of a failing end of the order. -/
def endReports (c : Chan) (x : Int) (o : Order) (l : Learning) (e : OrderEnd) (ms : Word) : List Event :=
  ((o.runOf l).map fun kind => learnRecord c x l kind e ms).toList

section
variable {o : Order} {l : Learning} {c : Chan} {x : Int} {e : OrderEnd} {ms : Word}

theorem Order.leaves_of_run (hm : o.mover = .learn) {kind : RunKind} (hk : l.kind = some kind) : o.leaves l = noLearning := by
  simp [Order.leaves, Order.runOf, hm, hk]

theorem Order.leaves_of_no_run (h : o.mover ≠ .learn ∨ l.kind = none) : o.leaves l = l := by
  unfold Order.leaves Order.runOf
  rcases h with h | h <;> simp [h]

theorem endReports_of_run (hm : o.mover = .learn) {kind : RunKind} (hk : l.kind = some kind) :
    endReports c x o l e ms = [learnRecord c x l kind e ms] := by
  simp [endReports, Order.runOf, hm, hk]

theorem endReports_of_no_run (h : o.mover ≠ .learn ∨ l.kind = none) : endReports c x o l e ms = [] := by
  unfold endReports Order.runOf
  rcases h with h | h <;> simp [h]

/-- An order of a client is of no run. -/
theorem endReports_of_client (h : o.mover = .client) : endReports c x o l e ms = [] :=
  endReports_of_no_run (.inl (by rw [h]; decide))

theorem Order.leaves_of_client (h : o.mover = .client) : o.leaves l = l := o.leaves_of_no_run (.inl (by rw [h]; decide))

theorem single_of_client (h : o.mover = .client) (g : Fin 4) : o.mover ≠ .group g := by rw [h]; exact nofun
theorem single_of_learn (h : o.mover = .learn) (g : Fin 4) : o.mover ≠ .group g := by rw [h]; exact nofun

theorem length_endReports : (endReports c x o l e ms).length ≤ 1 := by
  unfold endReports
  cases o.runOf l <;> simp

theorem kind_endReports {r : Event} (h : r ∈ endReports c x o l e ms) : r.kind = .learnFailed := by
  unfold endReports at h
  cases hr : o.runOf l <;> simp [hr] at h
  rw [h]
  rfl

end

namespace Does
variable {c : Chan} {s t u : State} {k k1 k2 : Channel} {q q' : List Chan} {es bs as : List Event} {o : Order}

/-- Nothing more is done. -/
theorem skip {v : State} (h : Does c s v k q es) : Does c s (id v) k q (es ++ []) := by
  rw [List.append_nil]
  exact h

/-- R100: an order's end up to the report to GRP: what `before` does ahead of MOVE_ENDED. -/
theorem endOrderWith_before (h : Does c s u k q es) (ho : k.moc.order = some o) (e : OrderEnd) (m : Motion)
    {before : State → State} (after : State → State)
    (hb : ∀ {v fs}, Does c s v (k.stopped s.clock.now m) (q.filter (· ≠ c)) fs →
      Does c s (before v) k1 (q.filter (· ≠ c)) (fs ++ bs)) :
    ∃ gs v, Dones gs ∧ ((∀ g, o.mover ≠ .group g) → gs = []) ∧
      Does c s v k1 (q.filter (· ≠ c)) (es ++ bs ++ [endRecord c k1.hif.pos e s.clock.ms] ++ gs) ∧
      endOrderWith c e m before after u = reportLearning c o e k1.hif.pos (after v) := by
  have hord : (u.ch c).moc.order = some o := by rw [h.self, ho]
  obtain ⟨w, hw⟩ : ∃ w, w = before (Machine.noteEnd c o.ownOpen (e = .target || e = .openEnd) (Machine.stopChannel c m u)) :=
    ⟨_, rfl⟩
  have hbefore : Does c s w k1 (q.filter (· ≠ c)) (es ++ bs) := by
    rw [hw]
    exact hb ((h.stopChannel m).noteEnd ..)
  obtain ⟨gs, hgs, hgroup, hv⟩ := (hbefore.postAt .moveEnded k1.hif.pos (natWord (orderEndCode e)) (by decide)).reportGroup
    c o e
  refine ⟨gs, _, hgs, hgroup, hv, ?_⟩
  have hpos : (w.ch c).hif.pos = k1.hif.pos := by rw [hbefore.self]
  unfold Machine.endOrderWith
  rw [hord]
  dsimp only
  rw [← hw, hpos]

/-- R100: an order's end up to the report to NRM; `after` comes between MOVE_ENDED and it. -/
theorem endOrderWith_upto (h : Does c s u k q es) (ho : k.moc.order = some o) (e : OrderEnd) (m : Motion)
    {before after : State → State}
    (hb : ∀ {v fs}, Does c s v (k.stopped s.clock.now m) (q.filter (· ≠ c)) fs →
      Does c s (before v) k1 (q.filter (· ≠ c)) (fs ++ bs))
    (ha : ∀ {v fs}, Does c s v k1 (q.filter (· ≠ c)) fs → Does c s (after v) k2 (q.filter (· ≠ c)) (fs ++ as)) :
    ∃ gs v, Dones gs ∧ ((∀ g, o.mover ≠ .group g) → gs = []) ∧
      Does c s v k2 (q.filter (· ≠ c)) (es ++ bs ++ [endRecord c k1.hif.pos e s.clock.ms] ++ gs ++ as) ∧
      endOrderWith c e m before after u = reportLearning c o e k1.hif.pos v := by
  obtain ⟨gs, v, hgs, hgroup, hv, heq⟩ := h.endOrderWith_before ho e m after hb
  exact ⟨gs, _, hgs, hgroup, ha hv, heq⟩

/-- R100: the end of an order of a client. -/
theorem endOrderWith_of_client (h : Does c s u k q es) (ho : k.moc.order = some o) (hm : o.mover = .client) (e : OrderEnd)
    (m : Motion) {before after : State → State}
    (hb : ∀ {v fs}, Does c s v (k.stopped s.clock.now m) (q.filter (· ≠ c)) fs →
      Does c s (before v) k1 (q.filter (· ≠ c)) (fs ++ bs))
    (ha : ∀ {v fs}, Does c s v k1 (q.filter (· ≠ c)) fs → Does c s (after v) k2 (q.filter (· ≠ c)) (fs ++ as)) :
    Does c s (endOrderWith c e m before after u) k2 (q.filter (· ≠ c))
      (es ++ bs ++ [endRecord c k1.hif.pos e s.clock.ms] ++ as) := by
  obtain ⟨gs, v, -, hclient, hv, heq⟩ := h.endOrderWith_upto ho e m hb ha
  rw [hclient fun g => by simp [hm], List.append_nil] at hv
  rw [heq, reportLearning_of_not_learn (by rw [hm]; decide)]
  exact hv

/-- R167: what NRM makes of an end that completes no run. -/
theorem reportFailing (h : Does c s u k q es) (o : Order) {e : OrderEnd} (he : e ≠ .openEnd) (he' : e ≠ .closedEnd) (x : Int) :
    Does c s (reportLearning c o e x u) { k with learning := o.leaves k.learning } q
      (es ++ endReports c x o k.learning e s.clock.ms) := by
  by_cases hm : o.mover = .learn
  · cases hk : k.learning.kind with
    | some kind =>
      rw [Order.leaves_of_run hm hk, endReports_of_run hm hk]
      exact h.reportLearning_of_run hm hk he he' x
    | none =>
      rw [Order.leaves_of_no_run (.inr hk), endReports_of_no_run (.inr hk), List.append_nil]
      exact h.reportLearning_of_no_run (.inr hk) e x
  · rw [Order.leaves_of_no_run (.inl hm), endReports_of_no_run (.inl hm), List.append_nil]
    exact h.reportLearning_of_no_run (.inl hm) e x

/-- R100, R167: an end that completes no run, of any order: GROUP_DONE may follow, and the failure of the run it is of. -/
theorem endFailing (h : Does c s u k q es) (ho : k.moc.order = some o) {e : OrderEnd} (he : e ≠ .openEnd)
    (he' : e ≠ .closedEnd) (m : Motion) {after : State → State} (hl : k2.learning = k.learning)
    (ha : ∀ {v fs}, Does c s v (k.stopped s.clock.now m) (q.filter (· ≠ c)) fs →
      Does c s (after v) k2 (q.filter (· ≠ c)) (fs ++ as)) :
    ∃ gs, Dones gs ∧ ((∀ g, o.mover ≠ .group g) → gs = []) ∧
      Does c s (endOrderWith c e m id after u) { k2 with learning := o.leaves k.learning } (q.filter (· ≠ c))
        (es ++ [endRecord c k.hif.pos e s.clock.ms] ++ gs ++ as ++ endReports c k.hif.pos o k.learning e s.clock.ms) := by
  obtain ⟨gs, v, hgs, hgroup, hv, heq⟩ := h.endOrderWith_upto ho e m (before := id) (after := after) skip ha
  refine ⟨gs, hgs, hgroup, ?_⟩
  simp only [List.append_nil, stopped_hif, off_pos] at hv heq
  rw [heq, ← hl]
  exact hv.reportFailing o he he' k.hif.pos

/-- R100: a plain end, `m` being IDLE or FAULT. -/
theorem endPlain (h : Does c s u k q es) (ho : k.moc.order = some o) {e : OrderEnd} (he : e ≠ .openEnd)
    (he' : e ≠ .closedEnd) (m : Motion) : ∃ gs, Dones gs ∧ ((∀ g, o.mover ≠ .group g) → gs = []) ∧
      Does c s (endOrderWith c e m id id u) { k.stopped s.clock.now m with learning := o.leaves k.learning }
        (q.filter (· ≠ c)) (es ++ [endRecord c k.hif.pos e s.clock.ms] ++ gs ++ endReports c k.hif.pos o k.learning e s.clock.ms) := by
  obtain ⟨gs, hgs, hgroup, hend⟩ := h.endFailing ho he he' m (after := id) stopped_learning skip
  exact ⟨gs, hgs, hgroup, by rwa [List.append_nil] at hend⟩

/-- R100: a plain end of an order that no group installed. -/
theorem endSingle (h : Does c s u k q es) (ho : k.moc.order = some o) (hm : ∀ g, o.mover ≠ .group g) {e : OrderEnd}
    (he : e ≠ .openEnd) (he' : e ≠ .closedEnd) (m : Motion) :
    Does c s (endOrderWith c e m id id u) { k.stopped s.clock.now m with learning := o.leaves k.learning } (q.filter (· ≠ c))
      (es ++ endRecord c k.hif.pos e s.clock.ms :: endReports c k.hif.pos o k.learning e s.clock.ms) := by
  obtain ⟨gs, -, hgroup, hend⟩ := h.endPlain ho he he' m
  rw [hgroup hm] at hend
  simpa using hend

/-- R94: the end of a reversal. -/
theorem endReversalTo (h : Does c s u k q es) (e : RevEnd) (m : Motion) : ∃ ds, Dones ds ∧
    Does c s (endReversalTo c e m u) (k.stopped s.clock.now m) (q.filter (· ≠ c))
      (es ++ [revRecord c k.hif.pos e s.clock.ms] ++ ds) := by
  have hpos : (u.ch c).hif.pos = k.hif.pos := by rw [h.self]
  unfold Machine.endReversalTo
  rw [hpos]
  exact (((h.stopChannel m).noteEnd ..).postAt .reversalEnd k.hif.pos _ (by decide)).reportGroupReversal c e

end Does

/-! ## FAULT (R98) -/

/-- R98: the channel with its drive off and the reason of a fault. -/
def Channel.faulted (now : Nat) (r : FaultReason) (k : Channel) : Channel :=
  { k.off now with moc := { (k.off now).moc with fault := some r } }

section
variable {now : Nat} {r : FaultReason} {k : Channel}

/-- A drive turned off twice at one moment. -/
@[simp] theorem off_faulted : (k.faulted now r).off now = k.faulted now r := by
  have hm : (k.faulted now r).moc.motion = k.moc.motion := off_motion
  by_cases h : k.moc.motion.drive = none
  · exact Channel.off_of_no_drive (by rwa [hm])
  · rw [Channel.off_of_drive (by rwa [hm]), Channel.faulted, Channel.off_of_drive h]

@[simp] theorem faulted_cal : (k.faulted now r).cal = k.cal := off_cal
@[simp] theorem faulted_auth : (k.faulted now r).auth = k.auth := off_auth
@[simp] theorem faulted_ctx : (k.faulted now r).ctx = k.ctx := off_ctx
@[simp] theorem faulted_level : (k.faulted now r).level = k.level := off_level
@[simp] theorem faulted_learning : (k.faulted now r).learning = k.learning := off_learning
@[simp] theorem faulted_hif : (k.faulted now r).hif = (k.off now).hif := rfl
@[simp] theorem faulted_order : (k.faulted now r).moc.order = k.moc.order := off_order
@[simp] theorem faulted_motion : (k.faulted now r).moc.motion = k.moc.motion := off_motion
@[simp] theorem faulted_fault : (k.faulted now r).moc.fault = some r := rfl
@[simp] theorem faulted_latched : (k.faulted now r).moc.latched = k.moc.latched := off_latched
@[simp] theorem faulted_noStep : (k.faulted now r).moc.noStep = k.moc.noStep := off_noStep
@[simp] theorem faulted_stall : (k.faulted now r).moc.stall = (k.off now).moc.stall := rfl
@[simp] theorem faulted_brakeRunning : (k.faulted now r).moc.brakeRunning = (k.off now).moc.brakeRunning := rfl
@[simp] theorem faulted_slot : (k.faulted now r).moc.slot = k.moc.slot := off_slot
@[simp] theorem faulted_revTarget : (k.faulted now r).moc.revTarget = k.moc.revTarget := off_revTarget

end

/-- The channel is in BRAKING after a pinch or REVERSING. -/
def Channel.reversal (k : Channel) : Prop := k.moc.motion = .brakingPinch ∨ k.moc.motion = .reversing

theorem inReversal_iff {s : State} {c : Chan} : s.inReversal c = true ↔ (s.ch c).reversal := by
  simp [State.inReversal, Channel.reversal]

namespace Does
variable {c : Chan} {s t u : State} {k k1 k2 : Channel} {q q' : List Chan} {es bs as : List Event} {o : Order}

/-- R98: what every entry into FAULT does first. -/
theorem fault (h : Does c s u k q es) (r : FaultReason) :
    Does c s (Machine.postAt .channelFault c (u.ch c).hif.pos (natWord (faultCode (some r)))
      (Machine.updMoc c (fun k => { k with fault := some r }) (Machine.driveOff c u))) (k.faulted s.clock.now r) q
      (es ++ [faultRecord c k.hif.pos r s.clock.ms]) := by
  have hpos : (u.ch c).hif.pos = k.hif.pos := by rw [h.self]
  rw [hpos]
  exact (h.driveOff.updMoc _).postAt .channelFault k.hif.pos _ (by decide)

/-- R98: a fault during a reversal. -/
theorem enterFaultWith_of_reversal (h : Does c s u k q es) (hrev : k.reversal) (r : FaultReason) {after : State → State}
    (ha : ∀ {v fs}, Does c s v ((k.faulted s.clock.now r).stopped s.clock.now .fault) (q.filter (· ≠ c)) fs →
      Does c s (after v) k2 (q.filter (· ≠ c)) (fs ++ as)) :
    ∃ ds, Dones ds ∧ Does c s (enterFaultWith c r after u) k2 (q.filter (· ≠ c))
      (es ++ [faultRecord c k.hif.pos r s.clock.ms, revRecord c k.hif.pos .fault s.clock.ms] ++ ds ++ as) := by
  have hnf : (u.ch c).moc.motion ≠ .fault := by
    rw [h.self]
    rcases hrev with hm | hm <;> simp [hm]
  have hin : u.inReversal c = true := inReversal_iff.mpr (by rw [h.self]; exact hrev)
  obtain ⟨ds, hds, hend⟩ := (h.fault r).endReversalTo .fault .fault
  refine ⟨ds, hds, ?_⟩
  rw [Machine.enterFaultWith, if_neg hnf, if_pos hin]
  simpa using ha hend

/-- R98: a fault of a channel with an order. -/
theorem enterFaultWith_of_order (h : Does c s u k q es) (hnf : k.moc.motion ≠ .fault) (hrev : ¬ k.reversal)
    (ho : k.moc.order = some o) (r : FaultReason) {after : State → State} (hl : k2.learning = k.learning)
    (ha : ∀ {v fs}, Does c s v ((k.faulted s.clock.now r).stopped s.clock.now .fault) (q.filter (· ≠ c)) fs →
      Does c s (after v) k2 (q.filter (· ≠ c)) (fs ++ as)) :
    ∃ gs, Dones gs ∧ ((∀ g, o.mover ≠ .group g) → gs = []) ∧
      Does c s (enterFaultWith c r after u) { k2 with learning := o.leaves k.learning } (q.filter (· ≠ c))
        (es ++ [faultRecord c k.hif.pos r s.clock.ms] ++ [endRecord c k.hif.pos .fault s.clock.ms] ++ gs ++ as ++
          endReports c k.hif.pos o k.learning .fault s.clock.ms) := by
  have hin : ¬ u.inReversal c = true := mt inReversal_iff.mp (by rwa [h.self])
  have hord : u.hasOrder c = true := by rw [State.hasOrder, h.self, ho]; rfl
  rw [Machine.enterFaultWith, if_neg (by rwa [h.self]), if_neg hin, if_pos hord]
  have hend := (h.fault r).endFailing (o := o) (by simpa using ho) (e := .fault) (by decide) (by decide) .fault
    (hl.trans (faulted_learning (now := s.clock.now) (r := r)).symm) ha
  simpa using hend

/-- R98: a fault of a channel with an order that no group installed. -/
theorem enterFaultWith_of_single (h : Does c s u k q es) (hnf : k.moc.motion ≠ .fault) (hrev : ¬ k.reversal)
    (ho : k.moc.order = some o) (hm : ∀ g, o.mover ≠ .group g) (r : FaultReason) {after : State → State}
    (hl : k2.learning = k.learning)
    (ha : ∀ {v fs}, Does c s v ((k.faulted s.clock.now r).stopped s.clock.now .fault) (q.filter (· ≠ c)) fs →
      Does c s (after v) k2 (q.filter (· ≠ c)) (fs ++ as)) :
    Does c s (enterFaultWith c r after u) { k2 with learning := o.leaves k.learning } (q.filter (· ≠ c))
      (es ++ [faultRecord c k.hif.pos r s.clock.ms, endRecord c k.hif.pos .fault s.clock.ms] ++ as ++
        endReports c k.hif.pos o k.learning .fault s.clock.ms) := by
  obtain ⟨gs, -, hgroup, hend⟩ := h.enterFaultWith_of_order hnf hrev ho r hl ha
  rw [hgroup hm] at hend
  simpa using hend

/-- R98: a fault of a channel that holds neither order nor reversal. -/
theorem enterFaultWith_of_free (h : Does c s u k q es) (hnf : k.moc.motion ≠ .fault) (hrev : ¬ k.reversal)
    (ho : k.moc.order = none) (r : FaultReason) {after : State → State}
    (ha : ∀ {v fs}, Does c s v { k.faulted s.clock.now r with moc := { (k.faulted s.clock.now r).moc with motion := .fault } }
      q fs → Does c s (after v) k2 q (fs ++ as)) :
    Does c s (enterFaultWith c r after u) k2 q (es ++ [faultRecord c k.hif.pos r s.clock.ms] ++ as) := by
  have hin : ¬ u.inReversal c = true := mt inReversal_iff.mp (by rwa [h.self])
  have hord : ¬ u.hasOrder c = true := by rw [State.hasOrder, h.self, ho]; simp
  rw [Machine.enterFaultWith, if_neg (by rwa [h.self]), if_neg hin, if_neg hord]
  exact ha ((h.fault r).updMoc _)

/-- R98: "a further fault condition reported while the channel is in FAULT keeps the recorded reason and posts nothing". -/
theorem enterFaultWith_of_fault (h : Does c s u k q es) (hf : k.moc.motion = .fault) (r : FaultReason)
    {after : State → State} (ha : Does c s (after u) k2 q' (es ++ as)) :
    Does c s (enterFaultWith c r after u) k2 q' (es ++ as) := by
  rw [Machine.enterFaultWith, if_pos (by rwa [h.self])]
  exact ha

/-! ## What is left to be done -/

/-- With nothing queued and nobody waiting, what an action left to be done is nothing. -/
theorem settle (h : Does c s u k [] es) (hk : k.moc.motion ≠ .waiting) (hw : ∀ d, d ≠ c → (s.ch d).moc.motion ≠ .waiting) :
    Does c s (settle u) k [] es := by
  rw [settle_of_quiet h.queue fun d => ?_]
  · exact h.agenda []
  · by_cases e : d = c
    · subst e
      rwa [h.self]
    · rw [h.other d e]
      exact hw d e

/-- A record about `c` that was posted is held by the clients that hear it. -/
theorem holds (h : Does c s t k q es) {e : EventKind} {w d : Word} (he : ⟨e, some c, w, d, s.clock.ms⟩ ∈ es)
    (hl : es.length ≤ 16) (hk : e ≠ .clientLapse) : ∀ y, Hears s y e c → Holds t y e (some c) w d :=
  fun _ hh => h.posts.holds h.clock he hl hh hk

/-- The records of an end, of a reversal's end, of a fault and of a run's failure, among at most 16. -/
theorem holds_end (h : Does c s t k q es) {x : Int} {e : OrderEnd} (he : endRecord c x e s.clock.ms ∈ es)
    (hl : es.length ≤ 16) : ∀ y, Hears s y .moveEnded c → Holds t y .moveEnded (some c) (signedWord x) (natWord (orderEndCode e)) :=
  h.holds he hl (by decide)

theorem holds_rev (h : Does c s t k q es) {x : Int} {e : RevEnd} (he : revRecord c x e s.clock.ms ∈ es)
    (hl : es.length ≤ 16) : ∀ y, Hears s y .reversalEnd c →
      Holds t y .reversalEnd (some c) (signedWord x) (natWord (revEndCode e)) := h.holds he hl (by decide)

theorem holds_fault (h : Does c s t k q es) {x : Int} {r : FaultReason} (he : faultRecord c x r s.clock.ms ∈ es)
    (hl : es.length ≤ 16) : ∀ y, Hears s y .channelFault c →
      Holds t y .channelFault (some c) (signedWord x) (natWord (faultCode (some r))) := h.holds he hl (by decide)

end Does

end Sys2Proof.Machine
end

section
/-! The Hall acceptances (R3 to R13) and the stalls (R51, R86) as commands: what each hands to MOC. Settles O35. -/

namespace Sys2Proof.Machine

/-! ## A channel changed twice -/

theorem updChan_updChan (c : Chan) (f g : Channel → Channel) (s : State) :
    updChan c f (updChan c g s) = updChan c (fun k => f (g k)) s := by
  simp [updChan]

theorem updChan_congr {c : Chan} {s : State} {f g : Channel → Channel} (h : f (s.ch c) = g (s.ch c)) :
    updChan c f s = updChan c g s := by
  simp only [updChan]
  exact congrArg (fun k => { s with chans := s.chans.set c k }) h

/-! ## Acceptances -/

section
variable {s : State} {c : Chan} {old pair : Pair} {d : Dir}

/-- R15: the acceptance of a populated channel. -/
theorem exec_accept (hp : (s.ch c).cal.populated = true) :
    exec (.hallAcceptance c pair) s = .next (settle (accept c pair s)) := by
  show Host.Outcome.next (settle (if s.sampled c then accept c pair s else s)) = _
  rw [if_pos (by simp [State.sampled, State.populated, hp])]

theorem stepDir_self (p : Pair) : stepDir p p = none := by revert p; decide

theorem ne_of_stepDir (h : stepDir old pair = some d) : old ≠ pair := fun e => by
  rw [e, stepDir_self] at h
  cases h

/-- R4: the phase after an acceptance, the filter cleared. -/
def Hif.accepted (pair : Pair) (h : Hif) : Hif := { h with phase := some pair, candidate := none, count := 0 }

/-- R4: the first acceptance gives the phase. -/
theorem accept_first (hp : (s.ch c).hif.phase = none) : accept c pair s = updHif c (Hif.accepted pair) s := by
  unfold accept
  rw [hp]
  rfl

/-- R5: a step. -/
theorem accept_step (hp : (s.ch c).hif.phase = some old) (hd : stepDir old pair = some d) :
    accept c pair s = hallStep c d (updHif c (Hif.accepted pair) s) := by
  unfold accept
  rw [hp]
  dsimp only
  rw [if_neg (ne_of_stepDir hd), hd]
  rfl

/-- R6: a quadrature error. -/
theorem accept_error (hp : (s.ch c).hif.phase = some old) (hne : old ≠ pair) (hd : stepDir old pair = none) :
    accept c pair s = quadratureError c (updHif c (Hif.accepted pair) s) := by
  unfold accept
  rw [hp]
  dsimp only
  rw [if_neg hne, hd]
  rfl

/-- R5: a step within the counter's range. -/
theorem hallStep_within (hlow : -1024 ≤ (s.ch c).hif.pos + stepDelta d) (hhigh : (s.ch c).hif.pos + stepDelta d ≤ 5119) :
    hallStep c d s = classifyStep c d (updHif c (fun h => { h with pos := (s.ch c).hif.pos + stepDelta d }) s) :=
  if_neg (by omega)

/-- R7: a step that would leave it. -/
theorem hallStep_beyond (h : (s.ch c).hif.pos + stepDelta d < -1024 ∨ 5119 < (s.ch c).hif.pos + stepDelta d) :
    hallStep c d s = rangeSaturation c s := if_pos h

/-- R5, R12: HIF's part after a step of direction `d` that left a capture record. -/
def State.stepped (s : State) (pair : Pair) (d : Dir) (h : Hif) : Hif := { h with
  phase := some pair, candidate := none, count := 0, pos := h.pos + stepDelta d
  fifo := captured ⟨s.clock.timebase, h.pos + stepDelta d, d, s.sup.reading⟩ h.fifo
  gap := h.gap || decide (2 ≤ h.fifo.length) }

/-- R51, R90: the channel after a drive-direction step was counted at `now`. -/
def Channel.counted (now : Nat) (k : Channel) : Channel :=
  { k with moc := { k.moc with
      noStep := 0, steps := k.moc.steps + 1
      stall := some (now + stallLength (stallReference
        { k with moc := { k.moc with noStep := 0, steps := k.moc.steps + 1 } } k.hif.pos)) } }

/-! ## What a drive-direction step does to the order or reversal (R85, R93) -/

theorem stepOutcome_of_reversing {t : Int} (hm : (s.ch c).moc.motion = .reversing) (hr : (s.ch c).moc.revTarget = some t)
    (ht : t ≤ (s.ch c).hif.pos) : stepOutcome c s = reversalAtTarget c s := by
  unfold stepOutcome
  rw [hm, hr]
  exact if_pos ht

theorem stepOutcome_of_opening {o : Order} (hm : (s.ch c).moc.motion = .opening) (ho : (s.ch c).moc.order = some o) :
    stepOutcome c s = if atTarget o.dir o.target (s.ch c).hif.pos then targetByStep c o s
      else throughGate c o id (s.gateAtStep c o) s := by
  unfold stepOutcome
  rw [hm, ho]

theorem stepOutcome_of_closing {o : Order} (hm : (s.ch c).moc.motion = .closing) (ho : (s.ch c).moc.order = some o) :
    stepOutcome c s = if atTarget o.dir o.target (s.ch c).hif.pos then targetByStep c o s
      else if s.clampedAtStep c o then enterWaiting c .follower s else s := by
  unfold stepOutcome
  rw [hm, ho]

namespace Does
variable {u : State} {k : Channel} {q : List Chan} {es : List Event}

theorem countStep (h : Does c s u k q es) : Does c s (countStep c u) (k.counted s.clock.now) q es := by
  have h1 := h.updMoc fun j => { j with noStep := 0, steps := j.steps + 1 }
  have h2 := h1.updMoc fun j => { j with stall := some (s.clock.now + stallLength (stallReference
    { k with moc := { k.moc with noStep := 0, steps := k.moc.steps + 1 } } k.hif.pos)) }
  have heq : Machine.countStep c u = Machine.updMoc c (fun j => { j with stall := some (s.clock.now + stallLength (stallReference
      { k with moc := { k.moc with noStep := 0, steps := k.moc.steps + 1 } } k.hif.pos)) })
      (Machine.updMoc c (fun j => { j with noStep := 0, steps := j.steps + 1 }) u) := by
    unfold Machine.countStep
    dsimp only
    rw [h1.self, h1.clock]
  rw [heq]
  exact h2

end Does

/-- R9, R12: a step with the drive on comes with a capture record; in the drive's direction it is MOC's. -/
theorem accept_drive_step (hp : (s.ch c).hif.phase = some old) (hd : stepDir old pair = some d)
    (hlow : -1024 ≤ (s.ch c).hif.pos + stepDelta d) (hhigh : (s.ch c).hif.pos + stepDelta d ≤ 5119)
    (hdrive : (s.ch c).moc.motion.drive = some d) :
    accept c pair s = driveStep c d (updHif c (fun _ => s.stepped pair d (s.ch c).hif) s) := by
  have hpos : ((updHif c (Hif.accepted pair) s).ch c).hif.pos = (s.ch c).hif.pos := by rw [ch_updHif_self]; rfl
  rw [accept_step hp hd, hallStep_within (by rwa [hpos]) (by rwa [hpos]), hpos]
  unfold classifyStep
  simp only [ch_updHif_self, hdrive, if_true]
  simp only [updHif_eq, updChan_updChan]
  refine congrArg (driveStep c d) (updChan_congr ?_)
  simp only [Hif.capture_eq, State.captureOf]
  rfl

end

namespace Does
variable {c : Chan} {s t u : State} {k k' : Channel} {q : List Chan} {es ds as : List Event}

/-- R141: no more than the four entries of the table can be freed. -/
theorem length_dones (h : Does c s t k q (es ++ ds ++ as)) (hd : Dones ds) : ds.length ≤ 4 := by
  have hfreed := h.freed
  have hle := openGroups_le s
  rw [doneCount_append, doneCount_append] at hfreed
  rw [dones_length hd]
  omega

theorem length_dones' (h : Does c s t k q (es ++ ds)) (hd : Dones ds) : ds.length ≤ 4 :=
  length_dones (as := []) (by rwa [List.append_nil]) hd

/-- R93, R130: the reversal ends at its target, and the window opens. -/
theorem reversalAtTarget (h : Does c s u k q es) : ∃ ds, Dones ds ∧
    Does c s (reversalAtTarget c u) { k.stopped s.clock.now .idle with
      auth := { k.auth with window := some (s.clock.now + 10000000) } } (q.filter (· ≠ c))
      (es ++ [revRecord c k.hif.pos .target s.clock.ms] ++ ds) := by
  obtain ⟨ds, hds, hend⟩ := h.endReversalTo .target .idle
  refine ⟨ds, hds, ?_⟩
  have hwindow := hend.updAuth fun a => { a with window := some (u.clock.now + 10000000) }
  rw [h.clock] at hwindow
  rw [stopped_auth] at hwindow
  unfold Machine.reversalAtTarget
  rw [h.clock]
  exact hwindow

/-- What GRP is told of a step changes nothing now. -/
theorem driveStep {d : Dir} (h : Does c s (stepOutcome c (Machine.countStep c u)) k q es) :
    Does c s (driveStep c d u) k q es := by
  unfold Machine.driveStep
  dsimp only
  split
  · exact (h.noteMoved c).notifyFollower c
  · exact h.notifyFollower c

end Does

/-! ## Stalls (R86, R90) -/

section
variable {s : State} {c : Chan} {o : Order} {due : Nat}

theorem exec_stall (h : (s.ch c).moc.stall = some due) (hd : due ≤ s.clock.now) :
    exec (.stall c) s = .next (settle (stallExpired c s)) := by
  show Host.Outcome.next (settle (if Machine.due (s.ch c).moc.stall s.clock.now then stallExpired c s else s)) = _
  rw [if_pos (due_iff.mpr ⟨due, h, hd⟩)]

/-- R86: a stall past the first step. -/
theorem stallExpired_of_steps (h : 0 < (s.ch c).moc.steps) : stallExpired c s = stallOutcome c s := by
  unfold stallExpired
  rw [if_neg (by omega)]

/-- R90: a stall before it counts a no-step start. -/
theorem stallExpired_of_no_step (h : (s.ch c).moc.steps = 0) (hn : (s.ch c).moc.noStep < 2) :
    stallExpired c s = stallOutcome c (updMoc c (fun k => { k with noStep := (s.ch c).moc.noStep + 1 }) s) := by
  have hcount : satSucc 255 (s.ch c).moc.noStep = (s.ch c).moc.noStep + 1 := by unfold satSucc; omega
  unfold stallExpired
  rw [if_pos h, hcount, if_neg (by omega)]

/-- R90: the third faults the channel. -/
theorem stallExpired_of_third (h : (s.ch c).moc.steps = 0) (hn : (s.ch c).moc.noStep = 2) :
    stallExpired c s = enterFault c .noSteps (updMoc c (fun k => { k with noStep := 3 }) s) := by
  unfold stallExpired
  rw [if_pos h, hn]
  rfl

theorem stallOutcome_of_reversing (h : (s.ch c).moc.motion = .reversing) : stallOutcome c s = endReversal c .stalled s := by
  unfold stallOutcome
  rw [h]

theorem stallOutcome_of_closing (h : (s.ch c).moc.motion = .closing) (ho : (s.ch c).moc.order = some o) :
    stallOutcome c s = if (s.ch c).level = .noneKnown then closedEndFound c o s
      else if zoneKindAt (s.ch c).cal.zones (s.ch c).hif.pos = some .seal then closedEnd c o s
      else pinch c .stall 0 (s.ch c).hif.pos s := by
  unfold stallOutcome
  rw [h, ho]

theorem stallOutcome_of_opening (h : (s.ch c).moc.motion = .opening) (ho : (s.ch c).moc.order = some o) :
    stallOutcome c s = if o.phase = .openEnd then learnOpenEndStall c s else openingStall c s := by
  unfold stallOutcome
  rw [h, ho]

end

/-- Settles O35: a step, or a stall, that ends the reversal, followed on its channel. -/
theorem reversalEndsAtItsTarget : Obligations.ReversalEndsAtItsTarget := by
  refine ⟨fun s c old pair ⟨_, hq, hw⟩ _ hpop hm hp hd hrev hhigh hlow => ?step, fun s c due ⟨_, hq, hw⟩ hs hdue hm hst => ?stall⟩
  case step =>
    have hdrive : (s.ch c).moc.motion.drive = some .opening := by rw [hm]; rfl
    have h := (Does.refl c s).updHif fun _ => s.stepped pair .opening (s.ch c).hif
    have hcount := h.countStep
    rw [hq] at hcount
    have hout := stepOutcome_of_reversing (by rw [hcount.self]; exact hm) (by rw [hcount.self]; exact hrev)
      (by rw [hcount.self]; exact Int.le_refl _)
    obtain ⟨ds, hds, hend⟩ := hcount.reversalAtTarget
    rw [← hout] at hend
    have ht := (hend.driveStep (d := .opening)).settle (by simp) fun d _ => hw d
    refine ⟨_, by rw [exec_accept hpop, accept_drive_step hp hd (by simp [stepDelta]; omega) (by simpa [stepDelta]) hdrive],
      ht.other, ?_⟩
    rw [ht.self]
    have hlen := ht.length_dones' hds
    refine ⟨rfl, rfl, rfl, by simp [Channel.counted], rfl, by simp [Channel.counted, State.stepped, stepDelta],
      ht.holds_rev (e := .target) (List.mem_append_left _ (List.mem_singleton_self _)) (by simp; omega)⟩
  case stall =>
    obtain ⟨ds, hds, hend⟩ := (Does.refl c s).endReversalTo .stalled .idle
    rw [hq] at hend
    have ht := hend.settle (by simp) fun d _ => hw d
    have hout : stallExpired c s = endReversalTo c .stalled .idle s :=
      (stallExpired_of_steps hst).trans (stallOutcome_of_reversing hm)
    refine ⟨_, by rw [exec_stall hs hdue, hout], ht.other, ?_⟩
    rw [ht.self]
    have hlen := ht.length_dones' hds
    refine ⟨rfl, rfl, rfl, by simp [Channel.off, hm, Motion.drive], by simp, by simp, by simp,
      ht.holds_rev (e := .stalled) (List.mem_append_left _ (List.mem_singleton_self _)) (by simp; omega)⟩

end Sys2Proof.Machine
end

section
/-! The requests that stop a channel (R99, R123, R124) on one channel. Settles O42, O43, O47. -/

namespace Sys2Proof.Machine

/-! ## A served request that acted on one channel -/

/-- A request of `x` was answered with `r` and `d`; channel `c` is `k`, the records `es` were posted. -/
structure Answered (x : Client) (c : Chan) (s t : State) (r : Result) (d : Word) (k : Channel) (q : List Chan)
    (es : List Event) : Prop where
  replies : Replies x r d t
  self : t.ch c = k
  other : OnlyChannel c s t
  queue : t.startQueue = q
  device : SameDevice s t
  hears : ∀ e w dd, ⟨e, some c, w, dd, s.clock.ms⟩ ∈ es → es.length ≤ 16 → e ≠ .clientLapse →
    ∀ y, Hears s y e c → Holds t y e (some c) w dd

section
variable {x y : Client} {c : Chan} {s u : State} {k : Channel} {q : List Chan} {es : List Event}

theorem Hears.received {e : EventKind} (h : Hears s y e c) : Hears (received x s) y e c := h.congr rfl rfl (mask_received ..)

theorem holds_setReply {r : Result} {d : Word} {e : EventKind} {ch : Option Chan} {w dd : Word} (h : Holds u y e ch w dd) :
    Holds (setReply x r d u) y e ch w dd := by
  unfold Holds at h ⊢
  rw [queue_setReply]
  exact h

theorem Does.answered (h : Does c (received x s) u k q es) (r : Result) (d : Word) :
    Answered x c s (setReply x r d u) r d k q es where
  replies := replies_setReply ..
  self := h.self
  other d hd := h.other d hd
  queue := h.queue
  device := (onlyLinks_received x s).sameDevice.trans (h.device.trans (onlyLinks_setReply ..).sameDevice)
  hears _ _ _ hm hl hk _ hh := holds_setReply (h.holds hm hl hk _ hh.received)

/-- A routed request whose owner, on the received frame, gives this answer. -/
theorem serve_routed_of_body {body : State → Answer} {r : Result} {d : Word} {t : State} (hr : s.ready = true)
    (h : body (Machine.received x s) = ⟨r, d, t⟩) : serve x (routed body) s = .next (setReply x r d (settle t)) := by
  rw [serve_eq, routed_of_ready (by rw [received_ready, hr]), h]

end

namespace Answered
variable {x : Client} {c : Chan} {s t : State} {r : Result} {d : Word} {k : Channel} {q : List Chan} {es : List Event}

theorem holds_end (h : Answered x c s t r d k q es) {pos : Int} {e : OrderEnd} (he : endRecord c pos e s.clock.ms ∈ es)
    (hl : es.length ≤ 16) : ∀ y, Hears s y .moveEnded c →
      Holds t y .moveEnded (some c) (signedWord pos) (natWord (orderEndCode e)) := h.hears _ _ _ he hl (by decide)

theorem holds_rev (h : Answered x c s t r d k q es) {pos : Int} {e : RevEnd} (he : revRecord c pos e s.clock.ms ∈ es)
    (hl : es.length ≤ 16) : ∀ y, Hears s y .reversalEnd c →
      Holds t y .reversalEnd (some c) (signedWord pos) (natWord (revEndCode e)) := h.hears _ _ _ he hl (by decide)

end Answered

/-! ## HALT (R123) -/

section
variable {x : Client} {p : BitVec 4} {c : Chan} {s : State} {o : Order}

theorem haltRequest_eq (hp : chanOf p = some c) (hpop : (s.ch c).cal.populated = true) (hmay : s.mayAct x c = true)
    (hright : s.hasRight x .move = true) (hlock : s.lockedOut x c = false) (hf : (s.ch c).moc.motion ≠ .fault)
    (hr : s.ready = true) (hrev : s.inReversal c = false) :
    haltRequest x p 0 0 s = ⟨.done, natWord (bit (s.hasOrder c)), haltChannel s c⟩ := by
  have hpop' : s.populated c = true := hpop
  simp [haltRequest, isPanel15_of_chanOf hp, hp, firstFailing, failsIf, State.haltRefusal, hpop', hmay, hright, hlock,
    not_inFault hf, hr, hrev]

theorem endOrder_of_none (h : (s.ch c).moc.order = none) (e : OrderEnd) : endOrder c e s = s := by
  simp [endOrder, endOrderWith, h]

/-- R123: a HALT that meets an order of a client or of a learning run. -/
theorem exec_halt (hq : ∀ d ∈ s.startQueue, d = c) (hw : ∀ d, d ≠ c → (s.ch d).moc.motion ≠ .waiting) (hr : s.ready = true)
    (hp : chanOf p = some c) (hpop : (s.ch c).cal.populated = true) (hmay : s.mayAct x c = true)
    (hright : s.hasRight x .move = true) (hlock : s.lockedOut x c = false) (hf : (s.ch c).moc.motion ≠ .fault)
    (hrev : s.inReversal c = false) (ho : (s.ch c).moc.order = some o) (hm : ∀ g, o.mover ≠ .group g) :
    ∃ t, exec (.halt x p 0 0) s = .next t ∧ Answered x c s t .done 1
      { (s.ch c).stopped s.clock.now .idle with learning := o.leaves (s.ch c).learning } []
      (endRecord c (s.ch c).hif.pos .halted s.clock.ms ::
        endReports c (s.ch c).hif.pos o (s.ch c).learning .halted s.clock.ms) := by
  have hempty : s.startQueue.filter (· ≠ c) = [] := List.filter_eq_nil_iff.mpr fun d hd => by simpa using hq d hd
  have hend := (Does.refl c (received x s)).endSingle (o := o) ho hm (e := .halted) (by decide) (by decide) .idle
  rw [received_startQueue, hempty] at hend
  have hord : s.hasOrder c = true := by rw [State.hasOrder, ho]; rfl
  have hbody := haltRequest_eq (s := received x s) hp hpop hmay hright hlock hf hr hrev
  refine ⟨_, serve_routed_of_body hr hbody, ?_⟩
  have hdata : natWord (bit ((received x s).hasOrder c)) = 1 := by
    rw [show (received x s).hasOrder c = s.hasOrder c from rfl, hord]
    rfl
  rw [hdata]
  exact (hend.settle (by simp) hw).answered .done 1

/-- Settles O42: HALT is the end of the order, followed on its channel. -/
theorem haltEndsTheOrder : Obligations.HaltEndsTheOrder := by
  intro s x p c ⟨ha, hq, hw⟩ hr hp hpop hmay hright hlock hf hrev
  refine ⟨fun hn => ?_, fun o ho hm => ?_⟩
  · have hbody := haltRequest_eq (s := received x s) hp hpop hmay hright hlock hf hr hrev
    have hord : (received x s).hasOrder c = false := by rw [State.hasOrder, ch_received, hn]; rfl
    have hhalt : haltChannel (received x s) c = received x s := endOrder_of_none (s := received x s) hn .halted
    rw [hord, hhalt] at hbody
    exact (serve_routed_of_body hr hbody).trans (by rw [settle_of_nil (s := received x s) ha]; rfl)
  · obtain ⟨t, ht, h⟩ := exec_halt (by simp [hq]) (fun d _ => hw d) hr hp hpop hmay hright hlock hf hrev ho
      (single_of_client hm)
    refine ⟨t, ht, h.replies, h.other, h.device, ?_⟩
    rw [h.self]
    refine ⟨rfl, rfl, rfl, by simp, by simp, fun hd => ?_, h.holds_end (e := .halted) (by simp) (by simp [endReports_of_client hm])⟩
    simp [Channel.off_of_drive hd]

end

/-! ## STOP CLAIM (R124) -/

theorem hasClient_addClient : ∀ (m : BitVec 4) (x y : Client),
    hasClient (addClient m x) y = (hasClient m y || decide (y = x)) := by decide

section
variable {x : Client} {p : BitVec 4} {c : Chan} {s u : State} {o : Order} {k : Channel} {q : List Chan} {es : List Event}

theorem stopClaimRequest_eq (hp : chanOf p = some c) (hpop : (s.ch c).cal.populated = true) (hmay : s.mayAct x c = true)
    (hright : s.hasRight x .claim = true) (hf : (s.ch c).moc.motion ≠ .fault) (hr : s.ready = true) :
    stopClaimRequest x p 0 0 s =
      ⟨.done, natWord (clientCount (addClient (s.ch c).auth.claims x)), claimChannel x s c⟩ := by
  have hpop' : s.populated c = true := hpop
  simp [stopClaimRequest, isPanel15_of_chanOf hp, hp, firstFailing, failsIf, hpop', hmay, hright, not_inFault hf, hr]

/-- R124: the channel with the claim of `x`. -/
def Channel.claimed (x : Client) (k : Channel) : Channel :=
  { k with auth := { k.auth with claims := addClient k.auth.claims x } }

/-- R124: a claim that ends a reversal. -/
theorem Does.claim_reversal (h : Does c s u k q es) (hrev : k.reversal) (x : Client) : ∃ ds, Dones ds ∧
    Does c s (claimChannel x u c) ((k.stopped s.clock.now .idle).claimed x) (q.filter (· ≠ c))
      (es ++ [revRecord c k.hif.pos .claimed s.clock.ms] ++ ds) := by
  obtain ⟨ds, hds, hend⟩ := h.endReversalTo .claimed .idle
  refine ⟨ds, hds, ?_⟩
  rw [claimChannel, stopForClaim, if_pos (inReversal_iff.mpr (by rwa [h.self]))]
  exact hend.updAuth _

/-- R124: a claim that ends an order. -/
theorem Does.claim_order (h : Does c s u k q es) (hrev : ¬ k.reversal) (ho : k.moc.order = some o)
    (hm : ∀ g, o.mover ≠ .group g) (x : Client) :
    Does c s (claimChannel x u c) ({ k.stopped s.clock.now .idle with learning := o.leaves k.learning }.claimed x)
      (q.filter (· ≠ c)) (es ++ endRecord c k.hif.pos .claimed s.clock.ms ::
        endReports c k.hif.pos o k.learning .claimed s.clock.ms) := by
  rw [claimChannel, stopForClaim, if_neg (mt inReversal_iff.mp (by rwa [h.self]))]
  exact (h.endSingle ho hm (by decide) (by decide) .idle).updAuth _

/-- R124: a claim that finds nothing to stop. -/
theorem Does.claim_free (h : Does c s u k q es) (hrev : ¬ k.reversal) (ho : k.moc.order = none) (x : Client) :
    Does c s (claimChannel x u c) (k.claimed x) q es := by
  rw [claimChannel, stopForClaim, if_neg (mt inReversal_iff.mp (by rwa [h.self])), endOrder_of_none (by rwa [h.self])]
  exact h.updAuth _

theorem exec_stopClaim (hr : s.ready = true) (hp : chanOf p = some c) (hpop : (s.ch c).cal.populated = true)
    (hmay : s.mayAct x c = true) (hright : s.hasRight x .claim = true) (hf : (s.ch c).moc.motion ≠ .fault) :
    exec (.stopClaim x p 0 0) s = .next (setReply x .done (natWord (clientCount (addClient (s.ch c).auth.claims x)))
      (settle (claimChannel x (received x s) c))) :=
  serve_routed_of_body hr (stopClaimRequest_eq (s := received x s) hp hpop hmay hright hf hr)

/-- Settles O43: by what the claim finds, a reversal, an order or neither. -/
theorem stopClaimStopsAndClaims : Obligations.StopClaimStopsAndClaims := by
  intro s x p c ⟨ha, hq, hw⟩ hr hp hpop hmay hright hf hclient
  have hcalm (d : Chan) (_ : d ≠ c) : ((received x s).ch d).moc.motion ≠ .waiting := hw d
  have hbase := Does.refl c (received x s)
  rw [received_startQueue, hq] at hbase
  suffices hmain : ∃ (k : Channel) (es : List Event), Does c (received x s) (settle (claimChannel x (received x s) c)) (k.claimed x) [] es ∧
      k.auth = (s.ch c).auth ∧ k.hif.pos = (s.ch c).hif.pos ∧
      ((s.ch c).moc.order.isSome = true ∨ s.inReversal c = true →
        k.moc.motion = .idle ∧ k.moc.order = none ∧ k.moc.revTarget = none ∧ k.moc.slot = false) ∧ es.length ≤ 16 ∧
      ((s.ch c).moc.order.isSome = true → s.inReversal c = false →
        endRecord c (s.ch c).hif.pos .claimed s.clock.ms ∈ es) ∧
      (s.inReversal c = true → revRecord c (s.ch c).hif.pos .claimed s.clock.ms ∈ es) by
    obtain ⟨k, es, h, hauth, hpos, hstop, hlen, hend, hrev⟩ := hmain
    have ht := h.answered .done (natWord (clientCount (addClient (s.ch c).auth.claims x)))
    refine ⟨_, exec_stopClaim hr hp hpop hmay hright hf, ?_⟩
    have hself := ht.self
    generalize setReply x .done (natWord (clientCount (addClient (s.ch c).auth.claims x)))
      (settle (claimChannel x (received x s) c)) = t at ht hself ⊢
    have hclaims : (t.ch c).auth.claims = addClient (s.ch c).auth.claims x := by rw [hself, ← hauth]; rfl
    refine ⟨by rw [hclaims]; exact ht.replies, ht.other, ?_, fun y hy => ?_, ?_, ?_, ?_, ?_, ?_⟩
    · rw [hclaims, hasClient_addClient]
      simp
    · rw [hclaims, hasClient_addClient]
      simp [hy]
    · rw [hself, ← hauth]
      rfl
    · rw [hself, ← hpos]
      rfl
    · rw [hself]
      exact hstop
    · exact fun ho hn => ht.holds_end (e := .claimed) (hend ho hn) hlen
    · exact fun hr => ht.holds_rev (e := .claimed) (hrev hr) hlen
  by_cases hrev : (s.ch c).reversal
  · have hin : s.inReversal c = true := inReversal_iff.mpr hrev
    obtain ⟨ds, hds, h⟩ := hbase.claim_reversal hrev x
    have hset := h.settle (by simp [Channel.claimed]) hcalm
    have hlen := hset.length_dones' hds
    refine ⟨_, _, hset, by simp, by simp, fun _ => ⟨rfl, rfl, rfl, rfl⟩, by simp; omega, fun _ hn => ?_, fun _ => ?_⟩
    · rw [hin] at hn
      cases hn
    · exact List.mem_append_left _ (List.mem_singleton_self _)
  · have hin : ¬ s.inReversal c = true := mt inReversal_iff.mp hrev
    cases ho : (s.ch c).moc.order with
    | some o =>
      have h := hbase.claim_order hrev ho (single_of_client (hclient o ho)) x
      have hset := h.settle (by simp [Channel.claimed]) hcalm
      refine ⟨_, _, hset, by simp, by simp, fun _ => ⟨rfl, rfl, rfl, rfl⟩,
        by simp [endReports_of_client (hclient o ho)], fun _ _ => by simp, fun h => absurd h hin⟩
    | none =>
      have hset := (hbase.claim_free hrev ho x).settle (hw c) hcalm
      exact ⟨_, _, hset, rfl, rfl, fun h => absurd h (by simp [hin]), by simp, fun h => (by cases h),
        fun h => absurd h hin⟩

end

end Sys2Proof.Machine
end

section
/-! PANEL RESTART (R99) on one channel. Settles O47. -/

namespace Sys2Proof.Machine

section
variable {x : Client} {p : BitVec 4} {c : Chan} {s u : State} {o : Order} {k : Channel} {q : List Chan} {es : List Event}

/-- R99, R17, R28, R115: what a channel holds after a restart, before its level drops. -/
def Channel.restarted (k : Channel) : Channel :=
  { k with
    hif := ⟨none, none, 0, 0, false, [], false, 0, 0, 0⟩
    ctx := resetContext
    auth := { k.auth with window := none, pinchLevel := 0, overrideLevel := 0 }
    moc := { k.moc with latched := false, noStep := 0, fault := none } }

namespace Does

/-- R155: the level is set, with or without a record. -/
theorem setLevel (h : Does c s u k q es) (l : Level) (pos : Int) : ∃ ls, ls.length ≤ 1 ∧ (∀ e ∈ ls, e.kind = .levelChanged) ∧
    Does c s (setLevel c l pos u) { k with level := l } q (es ++ ls) := by
  by_cases hl : k.level = l
  · subst hl
    exact ⟨[], by simp, nofun, by rw [List.append_nil]; exact h.setLevel_same rfl pos⟩
  · exact ⟨_, by simp, fun e he => by rw [List.mem_singleton.mp he], h.setLevel_ne hl pos⟩

/-- Nothing of this looks at the model's count of open choices. -/
theorem withFresh (h : Does c s u k q es) (f : Nat) : Does c { s with fresh := f } { u with fresh := f } k q es := by
  obtain ⟨h1, h2, h3, h4, h5, h6, h7, h8, h9, h10, h11, -, h13⟩ := h.device
  exact ⟨h.self, h.other, h.queue, h.spacing, ⟨h1, h2, h3, h4, h5, h6, h7, h8, h9, h10, h11, rfl, h13⟩,
    ⟨h.posts.link, h.posts.hears⟩, h.freed⟩

/-- R99: the clearing of HIF, LDE, AUT and MOC; a take in progress is overtaken. -/
theorem clearForRestart (h : Does c s u k q es) :
    ∃ l, Does c { s with lde := l } (clearForRestart c u) k.restarted q es := by
  obtain ⟨l, hl⟩ := (((h.setPosition 0 false).updHif Hif.restart).updCtx fun _ => resetContext).dropTake
  exact ⟨l, (hl.updAuth fun a => { a with window := none, pinchLevel := 0, overrideLevel := 0 }).updMoc
    fun m => { m with latched := false, noStep := 0, fault := none }⟩

/-- R99: what the other blocks do when the restart ends with the level. -/
theorem clearAndLower (h : Does c s u k q es) : ∃ l ls, ls.length ≤ 1 ∧ (∀ e ∈ ls, e.kind = .levelChanged) ∧
    Does c { s with lde := l } (Machine.setLevel c .noneKnown 0 (Machine.clearForRestart c u))
      { k.restarted with level := .noneKnown } q (es ++ ls) := by
  obtain ⟨l, hl⟩ := h.clearForRestart
  obtain ⟨ls, hlen, hkind, hls⟩ := hl.setLevel .noneKnown 0
  exact ⟨l, ls, hlen, hkind, hls⟩

theorem restartMotion_of_reversal (h : Does c s u k q es) (hrev : k.reversal) (after : State → State) :
    ∃ ds v, Dones ds ∧ Does c s v (k.stopped s.clock.now .idle) (q.filter (· ≠ c))
      (es ++ [revRecord c k.hif.pos .restart s.clock.ms] ++ ds) ∧ restartMotion c after u = after v := by
  obtain ⟨ds, hds, hend⟩ := h.endReversalTo .restart .idle
  exact ⟨ds, _, hds, hend, if_pos (inReversal_iff.mpr (by rwa [h.self]))⟩

theorem restartMotion_of_order (h : Does c s u k q es) (hrev : ¬ k.reversal) (ho : k.moc.order = some o)
    (after : State → State) : ∃ gs v, Dones gs ∧ ((∀ g, o.mover ≠ .group g) → gs = []) ∧
      Does c s v (k.stopped s.clock.now .idle) (q.filter (· ≠ c)) (es ++ [endRecord c k.hif.pos .restart s.clock.ms] ++ gs) ∧
      restartMotion c after u = reportLearning c o .restart k.hif.pos (after v) := by
  obtain ⟨gs, v, hgs, hgroup, hv, heq⟩ := h.endOrderWith_before ho .restart .idle (before := id) after skip
  rw [stopped_hif, off_pos] at hv heq
  refine ⟨gs, v, hgs, hgroup, by simpa using hv, ?_⟩
  rw [← heq]
  unfold restartMotion
  rw [if_neg (mt inReversal_iff.mp (by rwa [h.self])), if_pos (by rw [State.hasOrder, h.self, ho]; rfl)]

theorem restartMotion_of_free (h : Does c s u k q es) (hrev : ¬ k.reversal) (ho : k.moc.order = none)
    (after : State → State) : ∃ v, Does c s v { k with moc := { k.moc with motion := .idle } } q es ∧
      restartMotion c after u = after v := by
  refine ⟨_, h.updMoc fun m => { m with motion := .idle }, ?_⟩
  unfold restartMotion
  rw [if_neg (mt inReversal_iff.mp (by rwa [h.self])), if_neg (by rw [State.hasOrder, h.self, ho]; simp)]

end Does

/-- R99: what a restart leaves of channel `k`. -/
structure Restarted (k k' : Channel) : Prop where
  motion : k'.moc.motion = .idle
  order : k'.moc.order = none
  slot : k.moc.order.isSome = true ∨ k.reversal → k'.moc.slot = false
  latched : k'.moc.latched = false
  noStep : k'.moc.noStep = 0
  fault : k'.moc.fault = none
  hif : k'.hif = ⟨none, none, 0, 0, false, [], false, 0, 0, 0⟩
  ctx : k'.ctx = resetContext
  level : k'.level = .noneKnown
  auth : k'.auth = { k.auth with window := none, pinchLevel := 0, overrideLevel := 0 }
  cal : k'.cal = k.cal

theorem restarted_stopped (k : Channel) (now : Nat) (l : Learning) :
    Restarted k { (k.stopped now .idle).restarted with level := .noneKnown, learning := l } :=
  ⟨rfl, rfl, fun _ => rfl, rfl, rfl, rfl, rfl, rfl, rfl, by simp [Channel.restarted], by simp [Channel.restarted]⟩

theorem restarted_free {k : Channel} (ho : k.moc.order = none) (hrev : ¬ k.reversal) :
    Restarted k { ({ k with moc := { k.moc with motion := .idle } } : Channel).restarted with level := .noneKnown } :=
  ⟨rfl, ho, fun h => absurd h (by simp [ho, hrev]), rfl, rfl, rfl, rfl, rfl, rfl, rfl, rfl⟩

/-- R99: the restart of a channel that holds an order. -/
theorem restartChannel_of_order (h : Does c s u k q es) (hrev : ¬ k.reversal) (ho : k.moc.order = some o) :
    ∃ l gs ls, ls.length ≤ 1 ∧ (∀ e ∈ ls, e.kind = .levelChanged) ∧ Does.Dones gs ∧
      ((∀ g, o.mover ≠ .group g) → gs = []) ∧
      Does c { s with lde := l } (restartChannel u c)
        { (k.stopped s.clock.now .idle).restarted with level := .noneKnown, learning := o.leaves k.learning }
        (q.filter (· ≠ c)) (es ++ [endRecord c k.hif.pos .restart s.clock.ms] ++ gs ++ ls ++
          endReports c k.hif.pos o k.learning .restart s.clock.ms) := by
  obtain ⟨gs, v, hgs, hgroup, hv, heq⟩ := h.restartMotion_of_order hrev ho
    fun v => setLevel c .noneKnown 0 (clearForRestart c v)
  obtain ⟨l, ls, hlen, hkind, hlower⟩ := hv.clearAndLower
  refine ⟨l, gs, ls, hlen, hkind, hgs, hgroup, ?_⟩
  have hrestart : restartChannel u c = restartMotion c (fun v => setLevel c .noneKnown 0 (clearForRestart c v)) u :=
    if_pos (by rw [State.hasOrder, h.self, ho]; rfl)
  rw [hrestart, heq]
  have hreport := hlower.reportFailing o (e := .restart) (by decide) (by decide) k.hif.pos
  simpa [Channel.restarted] using hreport

/-- R99: the restart of a channel, whatever it holds. -/
theorem restartChannel_spec (h : Does c s u k q es) : ∃ l f k' q' es',
    Does c { s with lde := l, fresh := f } (restartChannel u c) k' q' es' ∧ Restarted k k' ∧ (q' = q ∨ q' = q.filter (· ≠ c)) := by
  by_cases hn : k.moc.order = none
  · have hfree : ¬ u.hasOrder c = true := by rw [State.hasOrder, h.self, hn]; simp
    have hfresh := h.withFresh (u.fresh + 1)
    cases hb : Config.postsFirst u.fresh with
    | true =>
      have hrestart : restartChannel u c =
          restartMotion c (clearForRestart c) (setLevel c .noneKnown 0 { u with fresh := u.fresh + 1 }) := by
        simp only [restartChannel, hfree, drawPostsFirst, hb, Bool.false_eq_true, if_false]
      obtain ⟨ls, -, -, hlevel⟩ := hfresh.setLevel .noneKnown 0
      rw [hrestart]
      by_cases hrev : k.reversal
      · obtain ⟨ds, v, -, hv, heq⟩ := hlevel.restartMotion_of_reversal hrev (clearForRestart c)
        obtain ⟨l, hl⟩ := hv.clearForRestart
        rw [heq]
        exact ⟨l, _, _, _, _, hl, ⟨rfl, rfl, fun _ => rfl, rfl, rfl, rfl, rfl, rfl, by simp [Channel.restarted],
          by simp [Channel.restarted], by simp [Channel.restarted]⟩, .inr rfl⟩
      · obtain ⟨v, hv, heq⟩ := hlevel.restartMotion_of_free hrev hn (clearForRestart c)
        obtain ⟨l, hl⟩ := hv.clearForRestart
        rw [heq]
        exact ⟨l, _, _, _, _, hl, restarted_free hn hrev, .inl rfl⟩
    | false =>
      have hrestart : restartChannel u c = restartMotion c (fun v => setLevel c .noneKnown 0 (clearForRestart c v))
          { u with fresh := u.fresh + 1 } := by
        simp only [restartChannel, hfree, drawPostsFirst, hb, Bool.false_eq_true, if_false]
      rw [hrestart]
      by_cases hrev : k.reversal
      · obtain ⟨ds, v, -, hv, heq⟩ := hfresh.restartMotion_of_reversal hrev
          fun v => setLevel c .noneKnown 0 (clearForRestart c v)
        obtain ⟨l, ls, -, -, hlower⟩ := hv.clearAndLower
        rw [heq]
        exact ⟨l, _, _, _, _, hlower, restarted_stopped k s.clock.now (k.stopped s.clock.now .idle).restarted.learning, .inr rfl⟩
      · obtain ⟨v, hv, heq⟩ := hfresh.restartMotion_of_free hrev hn
          fun v => setLevel c .noneKnown 0 (clearForRestart c v)
        obtain ⟨l, ls, -, -, hlower⟩ := hv.clearAndLower
        rw [heq]
        exact ⟨l, _, _, _, _, hlower, restarted_free hn hrev, .inl rfl⟩
  · obtain ⟨o, ho⟩ := Option.ne_none_iff_exists'.mp hn
    have hord : u.hasOrder c = true := by rw [State.hasOrder, h.self, ho]; rfl
    by_cases hrev : k.reversal
    · obtain ⟨ds, v, -, hv, heq⟩ := h.restartMotion_of_reversal hrev fun v => setLevel c .noneKnown 0 (clearForRestart c v)
      obtain ⟨l, ls, -, -, hlower⟩ := hv.clearAndLower
      have hrestart : restartChannel u c = _ := (if_pos hord).trans heq
      rw [hrestart]
      exact ⟨l, s.fresh, _, _, _, hlower, restarted_stopped k s.clock.now (k.stopped s.clock.now .idle).restarted.learning, .inr rfl⟩
    · obtain ⟨l, gs, ls, -, -, -, -, hend⟩ := restartChannel_of_order h hrev ho
      exact ⟨l, s.fresh, _, _, _, hend, restarted_stopped k s.clock.now _, .inr rfl⟩

/-! ## The request -/

theorem panelRestartRequest_eq (hp : chanOf p = some c) (hpop : (s.ch c).cal.populated = true) (hmay : s.mayAct x c = true)
    (hright : s.hasRight x .move = true) (hlock : s.lockedOut x c = false) (hr : s.ready = true) :
    panelRestartRequest x p 0 0 s = ⟨.done, 0, restartChannel s c⟩ := by
  have hpop' : s.populated c = true := hpop
  simp [panelRestartRequest, isPanel15_of_chanOf hp, hp, firstFailing, failsIf, hpop', hmay, hright, hlock, hr]

theorem exec_panelRestart (hr : s.ready = true) (hp : chanOf p = some c) (hpop : (s.ch c).cal.populated = true)
    (hmay : s.mayAct x c = true) (hright : s.hasRight x .move = true) (hlock : s.lockedOut x c = false) :
    exec (.panelRestart x p 0 0) s = .next (setReply x .done 0 (settle (restartChannel (received x s) c))) :=
  serve_routed_of_body hr (panelRestartRequest_eq (s := received x s) hp hpop hmay hright hlock hr)

/-- Settles O47: the restart by what the channel holds, with nothing of it left to other channels. -/
theorem panelRestartClearsTheChannel : Obligations.PanelRestartClearsTheChannel := by
  intro s x p c ⟨_, hq, hw⟩ hr hp hpop hmay hright hlock _
  have hbase := Does.refl c (received x s)
  rw [received_startQueue, hq] at hbase
  obtain ⟨l, f, k', q', es, h, hk, hqueue⟩ := restartChannel_spec hbase
  have hempty : q' = [] := by rcases hqueue with e | e <;> simpa using e
  subst hempty
  have hset := h.settle (by rw [hk.motion]; decide) fun d _ => hw d
  refine ⟨_, exec_panelRestart hr hp hpop hmay hright hlock, replies_setReply .., fun d hd => hset.other d hd, ?_⟩
  have hself : (setReply x .done 0 (settle (restartChannel (received x s) c))).ch c = k' := hset.self
  rw [hself]
  exact ⟨hk.motion, hk.order, fun h => hk.slot (h.imp_right inReversal_iff.mp), hk.latched, hk.noStep, hk.fault, hk.hif, hk.ctx,
    hk.level, by rw [hk.auth]; rfl, by rw [hk.auth]; rfl, by rw [hk.auth]; rfl, by rw [hk.auth], hk.cal⟩

end

end Sys2Proof.Machine
end

section
/-! What a stall makes of its channel: closed ends, open ends, obstructions and pinches (R86 to R92, R156, R157, R162). -/

namespace Sys2Proof.Machine

/-! ## A closed end, part by part -/

section
variable {c : Chan} {o : Order} {x : Int} {k : Channel} {ms : Word}

/-- R72: the channel after CCS took the run record. -/
def Channel.adapted (o : Order) (x : Int) (k : Channel) : Channel :=
  { k with cal := if qualifies o x k.cal k.ctx then adaptRecord k.cal k.ctx else k.cal }

/-- R157: the channel after NRM took the correction. -/
def Channel.corrected (o : Order) (x : Int) (k : Channel) : Channel :=
  if x.natAbs ≤ 24 then k
  else if o.phase = .refClosing then { k with learning := { k.learning with mark := some (k.learning.mark.getD .shift) } }
  else if k.level = .learned then
    { k with cal := ({ k.cal with profile := none, adaptations := 0 }).markChanged, level := .endsKnown }
  else k

/-- R157: what NRM posts of a correction. -/
def correctionRecords (c : Chan) (o : Order) (x : Int) (k : Channel) (ms : Word) : List Event :=
  if 24 < x.natAbs ∧ o.phase ≠ .refClosing ∧ k.level = .learned then
    [⟨.levelChanged, some c, signedWord 0, natWord (levelCode .endsKnown), ms⟩]
  else []

/-- R87, R157: what MOC posts of a closed end ahead of MOVE_ENDED. -/
def closedRecords (c : Chan) (x : Int) (ms : Word) : List Event :=
  (if 24 < x.natAbs then [⟨.positionCorrected, some c, signedWord 0, signedWord x, ms⟩] else []) ++
    [⟨.endReached, some c, signedWord 0, 0, ms⟩]

/-- R87 step 4, R130, R132: what AUT makes of a closed end. -/
def Auth.atClosedEnd (o : Order) (a : Auth) : Auth :=
  { a with window := none, pinchLevel := 0, overrideLevel := 0, inhibit := a.inhibit && decide (o.origin ≠ .localReq) }

theorem adaptRecord_populated (r : CalRecord) (run : LoadContext) : (adaptRecord r run).populated = r.populated := by
  unfold adaptRecord
  split
  · dsimp only
    split <;> rfl
  · rfl

theorem corrected_small (h : x.natAbs ≤ 24) : k.corrected o x = k := if_pos h

theorem correctionRecords_small (h : x.natAbs ≤ 24) : correctionRecords c o x k ms = [] := if_neg (by omega)

theorem adapted_large (h : 24 < x.natAbs) : k.adapted o x = k := by
  have hq : qualifies o x k.cal k.ctx = false := by
    unfold qualifies
    rw [decide_eq_false (p := x.natAbs ≤ 24) (by omega)]
    simp
  simp [Channel.adapted, hq]

theorem adapted_of_learn (h : o.mover = .learn) : k.adapted o x = k := by
  simp [Channel.adapted, qualifies, h]

/-- R87: the channel at the closed end, stopped. -/
def Channel.atClosedEnd (now : Nat) (k : Channel) : Channel :=
  { k with hif := { k.hif with pos := 0, posValid := true }, moc := { k.moc with latched := false } }.stopped now .idle

/-- R87, R72, R157: the channel after a closed end above level NONE, before a learning run is told. -/
def Channel.closedEnd (now : Nat) (o : Order) (k : Channel) : Channel :=
  let j := (k.atClosedEnd now).adapted o k.hif.pos |>.corrected o k.hif.pos
  { j with auth := j.auth.atClosedEnd o }

/-- R91, R92: the channel after a pinch decision at position `x`, before a learning run is told. -/
def Channel.pinched (now : Nat) (o : Order) (x : Int) (k : Channel) : Channel :=
  { k.off now with
    moc := { (k.off now).moc with
      motion := .brakingPinch, order := none, latched := true, revTarget := some (reversalTarget k.cal k.level x) }
    auth := k.auth.pinched o }

end

namespace Does
variable {c : Chan} {s t u : State} {k k' : Channel} {q : List Chan} {es ds as : List Event} {o : Order} {x : Int}

theorem takeAdaptation (h : Does c s u k q es) (o : Order) (x : Int) : Does c s (takeAdaptation c o x u) (k.adapted o x) q es := by
  unfold Machine.takeAdaptation Channel.adapted
  rw [h.self]
  split
  · have hcal := h.updCal (fun r => adaptRecord r k.ctx) (adaptRecord_populated ..)
    exact hcal
  · exact h

theorem takeCorrection (h : Does c s u k q es) (o : Order) (x : Int) :
    Does c s (takeCorrection c o x u) (k.corrected o x) q (es ++ correctionRecords c o x k s.clock.ms) := by
  unfold Machine.takeCorrection Channel.corrected correctionRecords
  rw [h.self]
  by_cases hsmall : x.natAbs ≤ 24
  · rw [if_pos hsmall, if_pos hsmall, if_neg (by omega), List.append_nil]
    exact h
  · rw [if_neg hsmall, if_neg hsmall]
    by_cases hphase : o.phase = .refClosing
    · rw [if_pos hphase, if_pos hphase, if_neg (by simp [hphase]), List.append_nil]
      exact h.updLearning _
    · rw [if_neg hphase, if_neg hphase]
      by_cases hlevel : k.level = .learned
      · rw [if_pos hlevel, if_pos hlevel, if_pos ⟨by omega, hphase, hlevel⟩]
        exact (h.updCal (fun r => ({ r with profile := none, adaptations := 0 }).markChanged) rfl).setLevel_ne
          (l := .endsKnown) (show k.level ≠ .endsKnown by rw [hlevel]; decide) 0
      · rw [if_neg hlevel, if_neg hlevel, if_neg (by simp [hlevel]), List.append_nil]
        exact h

theorem closedEndAuth (h : Does c s u k q es) (o : Order) :
    Does c s (closedEndAuth c o u) { k with auth := k.auth.atClosedEnd o } q es :=
  (h.updAuth fun a => { a with window := none, pinchLevel := 0, overrideLevel := 0 }).updAuth
    fun a => { a with inhibit := a.inhibit && decide (o.origin ≠ .localReq) }

/-- R87, R157: a closed end above level NONE, up to the report to NRM. -/
theorem closedEnd (h : Does c s u k q es) (ho : k.moc.order = some o) : ∃ gs v, Dones gs ∧
    ((∀ g, o.mover ≠ .group g) → gs = []) ∧
    Does c s v (k.closedEnd s.clock.now o) (q.filter (· ≠ c)) (es ++ closedRecords c k.hif.pos s.clock.ms ++
      [endRecord c 0 .closedEnd s.clock.ms] ++ gs ++
      correctionRecords c o k.hif.pos ((k.atClosedEnd s.clock.now).adapted o k.hif.pos) s.clock.ms) ∧
    Machine.closedEnd c o u = reportLearning c o .closedEnd 0 v := by
  have hpos : (u.ch c).hif.pos = k.hif.pos := by rw [h.self]
  have hstart := (h.setPosition 0 true).updMoc fun m => { m with latched := false }
  have hend := hstart.endOrderWith_upto (o := o) (k1 := k.atClosedEnd s.clock.now) (k2 := k.closedEnd s.clock.now o)
    (bs := closedRecords c k.hif.pos s.clock.ms)
    (as := correctionRecords c o k.hif.pos ((k.atClosedEnd s.clock.now).adapted o k.hif.pos) s.clock.ms)
    (before := fun v => (if 24 < k.hif.pos.natAbs then Machine.postAt .positionCorrected c 0 (signedWord k.hif.pos) v else v)
      |> Machine.postAt .endReached c 0 0)
    (after := fun v => v |> Machine.takeAdaptation c o k.hif.pos |> Machine.takeCorrection c o k.hif.pos
      |> Machine.closedEndAuth c o) ho .closedEnd .idle ?_ ?_
  · have hzero : (k.atClosedEnd s.clock.now).hif.pos = 0 := by simp [Channel.atClosedEnd]
    rw [hzero] at hend
    unfold Machine.closedEnd
    rw [hpos]
    exact hend
  · intro v fs hv
    unfold closedRecords
    split
    · rw [← List.append_assoc]
      exact (hv.postAt .positionCorrected 0 _ (by decide)).postAt .endReached 0 0 (by decide)
    · rw [List.nil_append]
      exact hv.postAt .endReached 0 0 (by decide)
  · intro v fs hv
    exact ((hv.takeAdaptation o k.hif.pos).takeCorrection o k.hif.pos).closedEndAuth o

/-- R87: a closed end of an order that no learning run and no group installed. -/
theorem closedEnd_of_client (h : Does c s u k q es) (ho : k.moc.order = some o) (hm : o.mover = .client) :
    Does c s (Machine.closedEnd c o u) (k.closedEnd s.clock.now o) (q.filter (· ≠ c)) (es ++ closedRecords c k.hif.pos s.clock.ms ++
      [endRecord c 0 .closedEnd s.clock.ms] ++
      correctionRecords c o k.hif.pos ((k.atClosedEnd s.clock.now).adapted o k.hif.pos) s.clock.ms) := by
  obtain ⟨gs, v, -, hgroup, hv, heq⟩ := h.closedEnd ho
  rw [hgroup (single_of_client hm), List.append_nil] at hv
  rw [heq, reportLearning_of_not_learn (by rw [hm]; decide)]
  exact hv

/-- R88, R156: a closed end found at level NONE. -/
theorem closedEndFound_of_client (h : Does c s u k q es) (ho : k.moc.order = some o) (hm : o.mover = .client)
    (hl : k.level = .noneKnown) : Does c s (closedEndFound c o u)
      { ({ k with level := supportedLevel k.cal }.atClosedEnd s.clock.now) with auth := k.auth.atClosedEnd o }
      (q.filter (· ≠ c)) (es ++ [⟨.levelChanged, some c, signedWord 0, natWord (levelCode (supportedLevel k.cal)), s.clock.ms⟩,
        ⟨.endReached, some c, signedWord 0, 0, s.clock.ms⟩, endRecord c 0 .closedEnd s.clock.ms]) := by
  have hne : k.level ≠ supportedLevel k.cal := by
    rw [hl]
    unfold supportedLevel
    split <;> decide
  have hcal : (u.ch c).cal = k.cal := by rw [h.self]
  have hstart := ((h.setPosition 0 true).setLevel_ne hne 0).updMoc fun m => { m with latched := false }
  have hend := hstart.endOrderWith_of_client (o := o) ho hm .closedEnd .idle
    (before := Machine.postAt .endReached c 0 0) (after := Machine.closedEndAuth c o)
    (fun hv => hv.postAt .endReached 0 0 (by decide)) (fun hv => by
      rw [List.append_nil]
      exact hv.closedEndAuth o)
  unfold Machine.closedEndFound
  rw [hcal]
  simpa [Channel.atClosedEnd] using hend

/-- R89: an opening stall at the open end. -/
theorem openingStall_of_near (h : Does c s u k q es) (ho : k.moc.order = some o) (hm : o.mover = .client)
    (hn : atOpenEnd k = true) : Does c s (openingStall c u) (k.stopped s.clock.now .idle) (q.filter (· ≠ c))
      (es ++ [⟨.endReached, some c, signedWord k.hif.pos, 1, s.clock.ms⟩, endRecord c k.hif.pos .openEnd s.clock.ms]) := by
  have hpos : (u.ch c).hif.pos = k.hif.pos := by rw [h.self]
  have hend := h.endOrderWith_of_client ho hm .openEnd .idle (before := Machine.postAt .endReached c k.hif.pos 1)
    (after := id) (fun hv => hv.postAt .endReached k.hif.pos 1 (by decide)) skip
  unfold Machine.openingStall
  rw [h.self, if_pos hn]
  simpa using hend

/-- R89: an opening stall short of it. -/
theorem openingStall_of_far (h : Does c s u k q es) (ho : k.moc.order = some o) (hm : ∀ g, o.mover ≠ .group g)
    (hn : atOpenEnd k = false) : Does c s (openingStall c u)
      { k.stopped s.clock.now .idle with learning := o.leaves k.learning } (q.filter (· ≠ c))
      (es ++ endRecord c k.hif.pos .obstructed s.clock.ms :: endReports c k.hif.pos o k.learning .obstructed s.clock.ms) := by
  unfold Machine.openingStall
  rw [h.self, if_neg (by simp [hn])]
  exact h.endSingle ho hm (by decide) (by decide) .idle

/-- R91: a pinch decision on a CLOSING channel. -/
theorem pinch_of_closing (h : Does c s u k q es) (hc : k.moc.motion = .closing) (ho : k.moc.order = some o)
    (hm : ∀ g, o.mover ≠ .group g) (r : PinchReason) (load x : Int) :
    Does c s (pinch c r load x u) { k.pinched s.clock.now o x with learning := o.leaves k.learning } q
      (es ++ ⟨.pinch, some c, signedWord x, pinchDetail r load, s.clock.ms⟩ ::
        endReports c k.hif.pos o k.learning .pinch s.clock.ms) := by
  have hgroup (v : State) : Machine.reportGroup c o .pinch v = v := by
    unfold Machine.reportGroup
    split
    · next g hg => exact absurd hg (hm g)
    · rfl
  have hstart := (((h.driveOff.updMoc fun m => { m with
    motion := .brakingPinch, order := none, latched := true
    revTarget := some (reversalTarget k.cal k.level x) }).noteEnd c o.ownOpen false).postAt .pinch x (pinchDetail r load)
    (by decide)).updAuth (Auth.pinched o)
  have hreport := hstart.reportFailing o (e := .pinch) (by decide) (by decide) k.hif.pos
  have hpinch : pinch c r load x u = reportLearning c o .pinch k.hif.pos (Machine.updAuth c (Auth.pinched o)
      (Machine.postAt .pinch c x (pinchDetail r load) (Machine.noteEnd c o.ownOpen false (Machine.updMoc c (fun m => { m with
        motion := .brakingPinch, order := none, latched := true
        revTarget := some (reversalTarget k.cal k.level x) }) (Machine.driveOff c u))))) := by
    unfold pinch
    rw [h.self, hc, ho]
    dsimp only
    rw [hgroup]
  rw [hpinch]
  simpa [Channel.pinched] using hreport

end Does

end Sys2Proof.Machine
end

section
/-! The stall by drive, level and zone (R86 to R90, R156, R157). Settles O33. -/

namespace Sys2Proof.Machine

/-! ## Brakes -/

theorem stopped_brakeRunning_of_drive {k : Channel} {now : Nat} {m : Motion} (h : k.moc.motion.drive ≠ none) :
    (k.stopped now m).moc.brakeRunning = true := by rw [stopped_brakeRunning, Channel.off_of_drive h]

theorem atClosedEnd_brakeRunning {k : Channel} {now : Nat} (h : k.moc.motion.drive ≠ none) :
    (k.atClosedEnd now).moc.brakeRunning = true := stopped_brakeRunning_of_drive (by exact h)

/-! ## Stalls as commands -/

section
variable {s : State} {c : Chan} {o : Order} {due : Nat} {k : Channel} {es : List Event}

/-- R86: a stall past the first step, from a calm state, is what its outcome does to its channel. -/
theorem exec_stall_of_steps (hw : ∀ d, d ≠ c → (s.ch d).moc.motion ≠ .waiting) (hs : (s.ch c).moc.stall = some due)
    (hdue : due ≤ s.clock.now) (hst : 0 < (s.ch c).moc.steps) (h : Does c s (stallOutcome c s) k [] es)
    (hk : k.moc.motion ≠ .waiting) : ∃ t, exec (.stall c) s = .next t ∧ Does c s t k [] es :=
  ⟨_, by rw [exec_stall hs hdue, stallExpired_of_steps hst], h.settle hk hw⟩

theorem closing_drive (h : (s.ch c).moc.motion = .closing) : (s.ch c).moc.motion.drive ≠ none := by rw [h]; exact nofun

theorem closedEnd_level (hsmall : (s.ch c).hif.pos.natAbs ≤ 24) (now : Nat) :
    ((s.ch c).closedEnd now o).level = (s.ch c).level := by
  simp [Channel.closedEnd, corrected_small hsmall, Channel.adapted, Channel.atClosedEnd]

theorem closedEnd_moc (k : Channel) (now : Nat) : (k.closedEnd now o).moc = (k.atClosedEnd now).moc := by
  unfold Channel.closedEnd Channel.corrected Channel.adapted
  dsimp only
  split
  · rfl
  · split
    · rfl
    · split <;> rfl

/-- R87: what a closed end leaves of the channel, whatever the correction. -/
theorem closedEnd_facts (k : Channel) (now : Nat) (hd : k.moc.motion.drive ≠ none) :
    (k.closedEnd now o).moc.motion = .idle ∧ (k.closedEnd now o).moc.order = none ∧ (k.closedEnd now o).moc.slot = false ∧
    (k.closedEnd now o).moc.latched = false ∧ (k.closedEnd now o).moc.brakeRunning = true ∧
    (k.closedEnd now o).hif.pos = 0 ∧ (k.closedEnd now o).hif.posValid = true ∧
    (k.closedEnd now o).auth = k.auth.atClosedEnd o := by
  have hmoc := closedEnd_moc (o := o) k now
  have hhif : (k.closedEnd now o).hif = (k.atClosedEnd now).hif := by
    unfold Channel.closedEnd Channel.corrected Channel.adapted
    dsimp only
    split
    · rfl
    · split
      · rfl
      · split <;> rfl
  have hauth : (k.closedEnd now o).auth = (k.atClosedEnd now).auth.atClosedEnd o := by
    unfold Channel.closedEnd Channel.corrected Channel.adapted
    dsimp only
    split
    · rfl
    · split
      · rfl
      · split <;> rfl
  rw [hmoc, hhif, hauth]
  exact ⟨rfl, rfl, rfl, by simp [Channel.atClosedEnd], atClosedEnd_brakeRunning hd, by simp [Channel.atClosedEnd],
    by simp [Channel.atClosedEnd], by simp [Channel.atClosedEnd]⟩

/-- R87: a closed end of a client's order, as a command. -/
theorem exec_closedEnd (hcalm : s.calm) (hs : (s.ch c).moc.stall = some due) (hdue : due ≤ s.clock.now)
    (hm : (s.ch c).moc.motion = .closing) (ho : (s.ch c).moc.order = some o) (hmover : o.mover = .client)
    (hl : (s.ch c).level ≠ .noneKnown) (hst : 0 < (s.ch c).moc.steps)
    (hz : zoneKindAt (s.ch c).cal.zones (s.ch c).hif.pos = some .seal) :
    ∃ t, exec (.stall c) s = .next t ∧ Does c s t ((s.ch c).closedEnd s.clock.now o) []
      (closedRecords c (s.ch c).hif.pos s.clock.ms ++ [endRecord c 0 .closedEnd s.clock.ms] ++
        correctionRecords c o (s.ch c).hif.pos (((s.ch c).atClosedEnd s.clock.now).adapted o (s.ch c).hif.pos) s.clock.ms) := by
  obtain ⟨-, hq, hw⟩ := hcalm
  have hend := (Does.refl c s).closedEnd_of_client ho hmover
  rw [hq] at hend
  refine exec_stall_of_steps (fun d _ => hw d) hs hdue hst ?_ ?_
  · rw [stallOutcome_of_closing hm ho, if_neg hl, if_pos hz]
    exact hend
  · rw [(closedEnd_facts (o := o) (s.ch c) s.clock.now (closing_drive hm)).1]
    decide

end

theorem atOpenEnd_iff {k : Channel} : atOpenEnd k = true ↔ ∃ lt : Nat, k.cal.travel = some lt ∧ (lt : Int) - 24 ≤ k.hif.pos ∧
    (k.level = .endsKnown ∨ k.level = .learned) := by
  unfold atOpenEnd
  cases k.cal.travel <;> simp [and_comm]

section
variable {s u : State} {c : Chan} {o : Order} {k : Channel} {es : List Event}

/-- R157: a correction above 24 of a LEARNED channel outside a learning run. -/
theorem closedEnd_of_learned (now : Nat) (hlarge : 24 < k.hif.pos.natAbs) (hp : o.phase = .notLearning) (hl : k.level = .learned) :
    (k.closedEnd now o).level = .endsKnown ∧
    (k.closedEnd now o).cal = { k.cal with profile := none, adaptations := 0, unsaved := true, changed := true } := by
  have hlevel : (k.atClosedEnd now).level = .learned := by simpa [Channel.atClosedEnd] using hl
  rw [Channel.closedEnd, adapted_large hlarge, Channel.corrected, if_neg (by omega), if_neg (by rw [hp]; decide),
    if_pos hlevel]
  exact ⟨rfl, by simp [Channel.atClosedEnd, CalRecord.markChanged]⟩

/-- R157: of a channel that is not LEARNED. -/
theorem closedEnd_of_not_learned (now : Nat) (hlarge : 24 < k.hif.pos.natAbs) (hp : o.phase = .notLearning)
    (hl : k.level ≠ .learned) : (k.closedEnd now o).level = k.level ∧ (k.closedEnd now o).cal = k.cal := by
  have hlevel : (k.atClosedEnd now).level ≠ .learned := by simpa [Channel.atClosedEnd] using hl
  rw [Channel.closedEnd, adapted_large hlarge, Channel.corrected, if_neg (by omega), if_neg (by rw [hp]; decide),
    if_neg hlevel]
  simp [Channel.atClosedEnd]

/-- R86: a stall of an order of a client ends it, and leaves the count of no-step starts. -/
theorem Does.stallOutcome_of_client (h : Does c s u k [] es) (hm : k.moc.motion = .closing ∨ k.moc.motion = .opening)
    (ho : k.moc.order = some o) (hmover : o.mover = .client) (hp : o.phase = .notLearning) : ∃ (k' : Channel) (es' : List Event),
    Does c s (stallOutcome c u) k' [] es' ∧ k'.moc.order = none ∧ k'.moc.noStep = k.moc.noStep ∧
    (k'.moc.motion = .idle ∨ k'.moc.motion = .brakingPinch) := by
  have hself := h.self
  rcases hm with hm | hm
  · rw [stallOutcome_of_closing (o := o) (by rwa [hself]) (by rwa [hself]), hself]
    by_cases hl : k.level = .noneKnown
    · rw [if_pos hl]
      exact ⟨_, _, h.closedEndFound_of_client ho hmover hl, rfl, by simp [Channel.atClosedEnd], .inl rfl⟩
    · rw [if_neg hl]
      by_cases hz : zoneKindAt k.cal.zones k.hif.pos = some .seal
      · rw [if_pos hz]
        have hmoc : (k.closedEnd s.clock.now o).moc = (k.atClosedEnd s.clock.now).moc := closedEnd_moc k _
        exact ⟨_, _, h.closedEnd_of_client ho hmover, by rw [hmoc]; rfl, by rw [hmoc]; simp [Channel.atClosedEnd],
          .inl (by rw [hmoc]; rfl)⟩
      · rw [if_neg hz]
        exact ⟨_, _, h.pinch_of_closing hm ho (single_of_client hmover) .stall 0 k.hif.pos, rfl, by simp [Channel.pinched],
          .inr rfl⟩
  · rw [stallOutcome_of_opening (o := o) (by rwa [hself]) (by rwa [hself]), if_neg (by rw [hp]; decide)]
    cases hn : atOpenEnd k with
    | true => exact ⟨_, _, h.openingStall_of_near ho hmover hn, rfl, by simp, .inl rfl⟩
    | false => exact ⟨_, _, h.openingStall_of_far ho (single_of_client hmover) hn, rfl, by simp, .inl rfl⟩

end

/-- Settles O33: each stall is the outcome its drive, level and zone name, followed on the channel. -/
theorem closedEndResyncs : Obligations.ClosedEndResyncs := by
  refine ⟨fun s c o due hcalm hs hdue hm ho hmover hl hst hz hsmall => ?closed,
    fun s c o due hcalm hs hdue ho hmover hphase => ⟨fun hm hst hl hz hlarge => ?corrected, fun hm hst hl => ?found,
      fun hm hst => ?opening, fun hm hst => ⟨fun hn => ?noStep, fun hn => ?third⟩⟩⟩
  case closed =>
    obtain ⟨t, ht, h⟩ := exec_closedEnd hcalm hs hdue hm ho hmover hl hst hz
    obtain ⟨h1, h2, h3, h4, h5, h6, h7, h8⟩ := closedEnd_facts (o := o) (s.ch c) s.clock.now (closing_drive hm)
    have hlen : (closedRecords c (s.ch c).hif.pos s.clock.ms ++ [endRecord c 0 .closedEnd s.clock.ms] ++
        correctionRecords c o (s.ch c).hif.pos (((s.ch c).atClosedEnd s.clock.now).adapted o (s.ch c).hif.pos)
          s.clock.ms).length ≤ 16 := by
      rw [correctionRecords_small hsmall, closedRecords, if_neg (by omega)]
      simp
    refine ⟨t, ht, h.other, h.device, ?_⟩
    rw [h.self]
    refine ⟨h1, h2, h3, h4, h5, h6, h7, closedEnd_level hsmall _, by rw [h8]; rfl, by rw [h8]; rfl, by rw [h8]; rfl,
      fun hl => by rw [h8]; simp [Auth.atClosedEnd, hl], fun hr => by rw [h8]; simp [Auth.atClosedEnd, hr],
      h.holds (w := signedWord 0) (by simp [closedRecords]) hlen (by decide), h.holds_end (x := 0) (e := .closedEnd) (by simp) hlen⟩
  case corrected =>
    obtain ⟨t, ht, h⟩ := exec_closedEnd hcalm hs hdue hm ho hmover hl hst hz
    obtain ⟨h1, h2, h3, h4, h5, h6, h7, -⟩ := closedEnd_facts (o := o) (s.ch c) s.clock.now (closing_drive hm)
    have hlevel : (((s.ch c).atClosedEnd s.clock.now).adapted o (s.ch c).hif.pos).level = (s.ch c).level := by
      simp [Channel.adapted, Channel.atClosedEnd]
    have hcorr : correctionRecords c o (s.ch c).hif.pos (((s.ch c).atClosedEnd s.clock.now).adapted o (s.ch c).hif.pos)
        s.clock.ms = if (s.ch c).level = .learned then
          [⟨.levelChanged, some c, signedWord 0, natWord (levelCode .endsKnown), s.clock.ms⟩] else [] := by
      rw [correctionRecords, hlevel]
      simp [hlarge, hphase]
    have hclosed : closedRecords c (s.ch c).hif.pos s.clock.ms = [⟨.positionCorrected, some c, signedWord 0,
        signedWord (s.ch c).hif.pos, s.clock.ms⟩, ⟨.endReached, some c, signedWord 0, 0, s.clock.ms⟩] := by
      rw [closedRecords, if_pos hlarge]
      rfl
    rw [hcorr, hclosed] at h
    have hlen (es : List Event) (he : es.length ≤ 1) (a b d : Event) : ([a, b] ++ [d] ++ es).length ≤ 16 := by simp; omega
    have hshort : (if (s.ch c).level = .learned then
        [(⟨.levelChanged, some c, signedWord 0, natWord (levelCode .endsKnown), s.clock.ms⟩ : Event)] else []).length ≤ 1 := by
      split <;> simp
    refine ⟨t, ht, ⟨h.other, ?_⟩, h.device, ?_⟩
    · rw [h.self, h1, h2, h3, h5, h6]
      exact ⟨rfl, rfl, rfl, rfl, h.holds_end (e := .closedEnd) (by simp) (hlen _ hshort ..)⟩
    · rw [h.self, h4, h6, h7]
      refine ⟨rfl, rfl, rfl, h.holds (w := signedWord 0) (by simp) (hlen _ hshort ..) (by decide), fun hlearned => ?_,
        closedEnd_of_not_learned _ hlarge hphase⟩
      obtain ⟨hlev, hcal⟩ := closedEnd_of_learned s.clock.now hlarge hphase hlearned
      refine ⟨hlev, hcal, ?_⟩
      exact h.holds (w := signedWord 0) (d := natWord (levelCode .endsKnown)) (by simp [hlearned]) (hlen _ hshort ..) (by decide)
  case found =>
    have hend := (Does.refl c s).closedEndFound_of_client ho hmover hl
    obtain ⟨-, hq, hw⟩ := hcalm
    rw [hq] at hend
    obtain ⟨t, ht, h⟩ := exec_stall_of_steps (fun d _ => hw d) hs hdue hst
      (by rw [stallOutcome_of_closing hm ho, if_pos hl]; exact hend) (by simp [Channel.atClosedEnd])
    refine ⟨t, ht, ⟨h.other, ?_⟩, h.device, ?_⟩
    · rw [h.self]
      exact ⟨rfl, rfl, rfl, atClosedEnd_brakeRunning (closing_drive hm),
        h.holds_end (e := .closedEnd) (by simp [Channel.atClosedEnd]) (by simp)⟩
    · rw [h.self]
      refine ⟨by simp [Channel.atClosedEnd], by simp [Channel.atClosedEnd], by simp [Channel.atClosedEnd],
        by simp [Channel.atClosedEnd], by simp [Channel.atClosedEnd]; rfl, ?_, ?_⟩
      · exact h.holds (w := signedWord 0) (by simp [Channel.atClosedEnd]) (by simp) (by decide)
      · exact h.holds (w := signedWord 0) (by simp) (by simp) (by decide)
  case opening =>
    obtain ⟨-, hq, hw⟩ := hcalm
    have hdrive : (s.ch c).moc.motion.drive ≠ none := by rw [hm]; exact nofun
    have hhif : ((s.ch c).stopped s.clock.now .idle).hif = { (s.ch c).hif with drift := 0 } := by
      rw [stopped_hif, Channel.off_of_drive hdrive]
    have hout : stallOutcome c s = openingStall c s := by
      rw [stallOutcome_of_opening hm ho, if_neg (by rw [hphase]; decide)]
    cases hn : atOpenEnd (s.ch c) with
    | true =>
      have hend := (Does.refl c s).openingStall_of_near ho hmover hn
      rw [hq, ← hout] at hend
      obtain ⟨t, ht, h⟩ := exec_stall_of_steps (fun d _ => hw d) hs hdue hst hend (by simp)
      refine ⟨t, ht, h.device, ?_⟩
      refine ⟨by rw [h.self]; exact hhif, by rw [h.self]; exact stopped_level, by rw [h.self]; exact stopped_latched,
        fun _ => ⟨?_, h.holds (by simp) (by simp) (by decide)⟩, fun hfar => absurd (atOpenEnd_iff.mp hn) hfar⟩
      have hpos : (t.ch c).hif.pos = (s.ch c).hif.pos := by rw [h.self]; exact off_pos
      exact ⟨h.other, by rw [h.self]; rfl, by rw [h.self]; rfl, by rw [h.self]; rfl,
        by rw [h.self]; exact stopped_brakeRunning_of_drive hdrive,
        by rw [hpos]; exact h.holds_end (e := .openEnd) (by simp) (by simp)⟩
    | false =>
      have hend := (Does.refl c s).openingStall_of_far ho (single_of_client hmover) hn
      rw [hq, ← hout] at hend
      obtain ⟨t, ht, h⟩ := exec_stall_of_steps (fun d _ => hw d) hs hdue hst hend (by simp)
      refine ⟨t, ht, h.device, ?_⟩
      have hpos : (t.ch c).hif.pos = (s.ch c).hif.pos := by rw [h.self]; exact off_pos
      refine ⟨by rw [h.self]; exact hhif, by rw [h.self]; exact off_level, by rw [h.self]; exact off_latched,
        fun hnear => absurd (atOpenEnd_iff.mpr hnear) (by simp [hn]), fun _ => ?_⟩
      exact ⟨h.other, by rw [h.self]; rfl, by rw [h.self]; rfl, by rw [h.self]; rfl,
        by rw [h.self]; exact stopped_brakeRunning_of_drive hdrive,
        by rw [hpos]; exact h.holds_end (e := .obstructed) (by simp) (by simp [endReports_of_client hmover])⟩
  case noStep =>
    obtain ⟨-, hq, hw⟩ := hcalm
    have hbase := (Does.refl c s).updMoc fun j => { j with noStep := (s.ch c).moc.noStep + 1 }
    rw [hq] at hbase
    obtain ⟨k, es, hk, hord, hno, hmot⟩ := hbase.stallOutcome_of_client hm ho hmover hphase
    rw [← stallExpired_of_no_step hst hn] at hk
    have hset := hk.settle (by rcases hmot with e | e <;> simp [e]) fun d _ => hw d
    refine ⟨_, exec_stall hs hdue, ?_⟩
    rw [hset.self]
    exact ⟨hno, by rcases hmot with e | e <;> simp [e], hord⟩
  case third =>
    obtain ⟨-, hq, hw⟩ := hcalm
    have hbase := (Does.refl c s).updMoc fun j => { j with noStep := 3 }
    rw [hq] at hbase
    have hmot : (s.ch c).moc.motion ≠ .fault ∧ ¬ (s.ch c).reversal := by
      rcases hm with e | e <;> simp [e, Channel.reversal]
    have hend := hbase.enterFaultWith_of_single (o := o) (as := []) hmot.1 hmot.2 ho (single_of_client hmover) .noSteps
      (after := id) (by simp) Does.skip
    have hset := (show Does c s (enterFault c .noSteps _) _ _ _ from hend).settle (by simp) fun d _ => hw d
    rw [← stallExpired_of_third hst hn] at hset
    refine ⟨_, exec_stall hs hdue, hset.other, hset.device, ?_⟩
    rw [hset.self]
    refine ⟨by simp, rfl, by simp, rfl, rfl, ?_, ?_⟩
    · exact hset.holds_fault (r := .noSteps) (by simp) (by simp [endReports_of_client hmover])
    · exact hset.holds_end (e := .fault) (by simp) (by simp [endReports_of_client hmover])

end Sys2Proof.Machine
end

section
/-! The adaptation of a profile at a closed end (R56, R72, R73). Settles O57. -/

namespace Sys2Proof.Machine

/-! ## One band -/

section
variable {r width : Nat} {b : BandSum}

theorem adaptBand_of_partial (h : b.count ≠ width) : adaptBand r width b = r := if_neg h

theorem adaptBand_of_far (h : b.count = width) (hd : r / 4 < ((b.sum / b.count : Nat) - (r : Int)).natAbs) :
    adaptBand r width b = r := by
  unfold adaptBand
  rw [if_pos h]
  exact if_neg (by omega)

theorem adaptBand_of_near (h : b.count = width) (hd : ((b.sum / b.count : Nat) - (r : Int)).natAbs ≤ r / 4) :
    (adaptBand r width b : Int) = max 200 (min (r + ((b.sum / b.count : Nat) - (r : Int)).tdiv 8) 60000) := by
  unfold adaptBand
  rw [if_pos h]
  dsimp only
  rw [if_pos hd, clampInt]
  omega

end

/-! ## The bands of a profile -/

theorem length_adaptBands (travel : Nat) (bands : List Nat) (sums : List BandSum) (b : Nat) :
    (adaptBands travel bands sums b).length = bands.length := by
  induction bands, sums, b using adaptBands.induct with
  | case1 r rs x xs b ih => simp [adaptBands, ih]
  | case2 rs xs b h => rw [adaptBands]; exact h

/-- R73: band `i` of the new profile. -/
theorem getElem?_adaptBands (travel : Nat) (bands : List Nat) (sums : List BandSum) (b i : Nat) {v : Nat} {x : BandSum}
    (hv : bands[i]? = some v) (hx : sums[i]? = some x) :
    (adaptBands travel bands sums b)[i]? = some (adaptBand v (bandWidth travel (b + i)) x) := by
  induction bands, sums, b using adaptBands.induct generalizing i with
  | case1 r rs y ys b ih =>
    cases i with
    | zero =>
      obtain rfl : r = v := by simpa using hv
      obtain rfl : y = x := by simpa using hx
      simp [adaptBands]
    | succ i =>
      have hi := ih i (by simpa using hv) (by simpa using hx)
      simpa [adaptBands, Nat.add_assoc, Nat.add_comm 1 i] using hi
  | case2 rs ys b h =>
    cases rs with
    | nil => simp at hv
    | cons a rs =>
      cases ys with
      | nil => simp at hx
      | cons y ys => exact absurd (h a rs y ys rfl rfl) id

/-! ## The record -/

section
variable {r : CalRecord} {run : LoadContext} {lt : Nat} {bands : List Nat}

theorem adaptRecord_of_profile (ht : r.travel = some lt) (hp : r.profile = some bands) :
    adaptRecord r run = if adaptBands lt bands run.bands.toList 0 = bands then r else { r with
      profile := some (adaptBands lt bands run.bands.toList 0), adaptations := min 65535 (r.adaptations + 1)
      unsaved := true, changed := true } := by
  unfold adaptRecord
  rw [ht, hp]
  rfl

theorem adaptRecord_of_absent (h : r.travel = none ∨ r.profile = none) : adaptRecord r run = r := by
  unfold adaptRecord
  rcases h with h | h
  · rw [h]
  · rw [h]
    cases r.travel <;> rfl

/-- R72: the conditions that a closed end of a client's order leaves to be met. -/
theorem qualifies_iff {o : Order} {x : Int} (hm : o.mover = .client) (hx : x.natAbs ≤ 24) : qualifies o x r run = true ↔
    o.mode = .auto ∧ o.k = 0 ∧ r.profile ≠ none ∧ run.qualified = true ∧ run.gapCount ≤ 4 ∧ run.joltCount ≤ 4 := by
  simp [qualifies, hm, hx, Option.isSome_iff_ne_none, and_assoc]

end

/-- Settles O57: a band by the three cases of R73, the profile band by band, and the closed end that adapts it. -/
theorem adaptationMovesABand : Obligations.AdaptationMovesABand := by
  refine ⟨fun r width b _ => ⟨adaptBand_of_partial, adaptBand_of_far, adaptBand_of_near⟩, fun r run => ?_, fun lt b => rfl,
    fun r run lt bands ht hp _ => ⟨adaptBands lt bands run.bands.toList 0, length_adaptBands .., fun b v hv => ?_,
      adaptRecord_of_profile ht hp⟩, fun s c o due hcalm hs hdue hm ho hmover hl hst hz hsmall => ?_⟩
  · cases ht : r.travel with
    | none => exact .inl (adaptRecord_of_absent (.inl ht))
    | some lt =>
      cases hp : r.profile with
      | none => exact .inl (adaptRecord_of_absent (.inr hp))
      | some bands =>
        rw [adaptRecord_of_profile ht hp]
        split
        · exact .inl rfl
        · next hne => exact .inr ⟨rfl, rfl, fun e => hne (Option.some.inj e), rfl, ht⟩
  · have hb := getElem?_adaptBands lt bands run.bands.toList 0 b.val hv (x := run.bands[b]) (by simp)
    rwa [Nat.zero_add] at hb
  · obtain ⟨t, ht, h⟩ := exec_closedEnd hcalm hs hdue hm ho hmover hl hst hz
    refine ⟨t, ht, ?_⟩
    have hcal : ((s.ch c).closedEnd s.clock.now o).cal = if qualifies o (s.ch c).hif.pos (s.ch c).cal (s.ch c).ctx then
        adaptRecord (s.ch c).cal (s.ch c).ctx else (s.ch c).cal := by
      rw [Channel.closedEnd, corrected_small hsmall]
      simp [Channel.adapted, Channel.atClosedEnd]
    rw [h.self, hcal]
    simp only [qualifies_iff hmover hsmall]

end Sys2Proof.Machine
end

section
/-! A decision of LDE, or a closing stall outside SEAL, as a pinch (R47, R91, R92). Settles O32. -/

namespace Sys2Proof.Machine

/-! ## A record that decides (R47) -/

section
variable {s : State} {t : Take} {k : LoadContext} {d : Decision}

/-- R47: a computed step marks the run decided when it gives a decision. -/
theorem computedStep_marks (t : Take) (k : LoadContext) : ∃ (d : Option Decision) (k' : LoadContext),
    computedStep t k = (markDecided d k', d) := by
  cases hf : isFull t k with
  | true => exact ⟨_, _, computedStep_of_full hf⟩
  | false => exact ⟨_, _, computedStep_of_absolute hf⟩

/-- R47: the record that gives a decision leaves the run decided. -/
theorem decided_of_decision (h : (treatRecord t k).2 = some d) : (treatRecord t k).1.decided = true := by
  by_cases hidle : k.runDir ≠ some .closing ∨ k.decided = true
  · rw [treatRecord_idle hidle] at h
    cases h
  · obtain ⟨hrun, hdec⟩ := not_or.mp hidle
    have hrun := not_not.mp hrun
    have hdec : k.decided = false := by simpa using hdec
    cases hdir : t.record.dir with
    | opening =>
      rw [treatRecord_contrary hrun hdec hdir] at h
      cases h
    | closing =>
      by_cases hseed : t.gap = true ∨ k.seeded = false
      · rw [treatRecord_seed hrun hdec hdir hseed] at h
        cases h
      · obtain ⟨hgap, hs⟩ := not_or.mp hseed
        rw [treatRecord_computed hrun hdec hdir (by simpa using hgap) (by simpa using hs)] at h ⊢
        obtain ⟨d', k', heq⟩ := computedStep_marks t k
        rw [heq] at h ⊢
        obtain rfl : d' = some d := h
        rw [markDecided_eq]
        simp

theorem completeTake_of_some (hd : t.dropped = false) (hr : (treatRecord t (s.ch t.chan).ctx).2 = some d)
    (hm : t.learnClose = false ∨ t.supply = .normal) : completeTake t s =
      pinch t.chan d.reason d.load t.record.pos (written t (treatRecord t (s.ch t.chan).ctx).1 s) := by
  have hmark : (isComputed t (s.ch t.chan).ctx && t.learnClose && decide (t.supply ≠ .normal)) = false := by
    rcases hm with hm | hm <;> simp [hm]
  have hch : ({ s with lde := { s.lde with busy := none } } : State).ch t.chan = s.ch t.chan := rfl
  simp only [completeTake, hd, Bool.false_eq_true, if_false, hch, hr, hmark]
  rfl

/-- R91: "MOC acts on it only when the channel is CLOSING". -/
theorem pinch_of_not_closing {c : Chan} (h : (s.ch c).moc.motion ≠ .closing) (r : PinchReason) (load x : Int) :
    pinch c r load x s = s := by
  unfold pinch
  split
  · next hm _ => exact absurd hm h
  · rfl

end

/-! ## The channel after a pinch -/

section
variable {k : Channel} {o : Order} {now : Nat} {x : Int}

theorem pinched_of_drive (h : k.moc.motion.drive ≠ none) : (k.pinched now o x).moc.stall = none ∧
    (k.pinched now o x).moc.brakeRunning = true ∧ (k.pinched now o x).moc.brakeExpiry = now + 10000 * k.cal.brake := by
  rw [Channel.pinched, Channel.off_of_drive h]
  exact ⟨rfl, rfl, rfl⟩

theorem reversalTarget_of_low {r : CalRecord} {l : Level} (h : l = .noneKnown ∨ l = .closedKnown) :
    reversalTarget r l x = min (x + r.rd) 5119 := by
  unfold reversalTarget
  rcases h with rfl | rfl <;> rfl

theorem reversalTarget_of_high {r : CalRecord} {l : Level} {lt : Nat} (h : l = .endsKnown ∨ l = .learned)
    (ht : r.travel = some lt) (hms : r.ms ≤ lt) :
    reversalTarget r l x = min (min ((lt : Int) - r.ms) (max (x + r.rd) r.floor)) 5119 := by
  have hstop : softStop r = some (lt - r.ms) := by rw [softStop, ht]; rfl
  have hcast : ((lt - r.ms : Nat) : Int) = (lt : Int) - r.ms := by omega
  unfold reversalTarget
  rw [hstop]
  rcases h with rfl | rfl <;> simp only [hcast]

end

theorem Does.of_queue {c : Chan} {s u : State} {k : Channel} {q q' : List Chan} {es : List Event} (h : Does c s u k q es)
    (hq : q = q') : Does c s u k q' es := hq ▸ h

theorem Does.of_eq {c : Chan} {s t u : State} {k : Channel} {q : List Chan} {es : List Event} (h : Does c s u k q es)
    (ht : t = u) : Does c s t k q es := ht ▸ h

/-- R47, R91: the completion of a record that decides, on a CLOSING channel. -/
theorem exec_pinch {s : State} {t : Take} {d : Decision} {o : Order} (hcalm : s.calm) (hb : s.lde.busy = some t)
    (hd : t.dropped = false) (hr : (treatRecord t (s.ch t.chan).ctx).2 = some d)
    (hl : t.learnClose = false ∨ t.supply = .normal) (hm : (s.ch t.chan).moc.motion = .closing)
    (ho : (s.ch t.chan).moc.order = some o) (hmover : o.mover = .client) :
    ∃ u, exec .ldeCompletion s = .next u ∧ Does t.chan { s with lde := { s.lde with busy := none } } u
      { (s.ch t.chan).pinched s.clock.now o t.record.pos with ctx := (treatRecord t (s.ch t.chan).ctx).1 } []
      (⟨.pinch, some t.chan, signedWord t.record.pos, pinchDetail d.reason d.load, s.clock.ms⟩ ::
        endReports t.chan (s.ch t.chan).hif.pos o (s.ch t.chan).learning .pinch s.clock.ms) := by
  obtain ⟨-, hq, hw⟩ := hcalm
  have hexec : exec .ldeCompletion s = .next (settle (pinch t.chan d.reason d.load t.record.pos
      (written t (treatRecord t (s.ch t.chan).ctx).1 s))) := by
    rw [← completeTake_of_some hd hr hl]
    show Host.Outcome.next (settle (match s.lde.busy with | some t => completeTake t s | none => s)) = _
    rw [hb]
  obtain ⟨after, hafter⟩ : ∃ k, k = (treatRecord t (s.ch t.chan).ctx).1 := ⟨_, rfl⟩
  rw [← hafter] at hexec ⊢
  have hbase := ((Does.refl t.chan { s with lde := { s.lde with busy := none } }).updCtx fun _ => after).of_queue hq
  have hend := hbase.pinch_of_closing hm ho (single_of_client hmover) d.reason d.load t.record.pos
  have hset := hend.settle (by simp [Channel.pinched]) fun d _ => hw d
  refine ⟨_, hexec, ?_⟩
  have hk : ({ ({ s.ch t.chan with ctx := after } : Channel).pinched s.clock.now o t.record.pos with
      learning := o.leaves (s.ch t.chan).learning } : Channel) =
      { (s.ch t.chan).pinched s.clock.now o t.record.pos with ctx := after } := by
    have hdrive := closing_drive hm
    simp [Channel.pinched, Channel.off_of_drive, hdrive, Order.leaves_of_client hmover]
  rw [← hk]
  exact hset

/-- Settles O32: the decision of a record, and of a stall, followed on its channel. -/
theorem pinchTurnsTheDriveOff : Obligations.PinchTurnsTheDriveOff := by
  refine ⟨fun s t d o ⟨_, hq, hw⟩ hb hdrop hr hlearn hm ho hmover => ?record,
    fun s t d ha hb hdrop hr hmark hm => ⟨decided_of_decision hr, ?ignored⟩,
    fun s c o due hcalm hs hdue hm ho hmover hl hst hz => ?stall⟩
  case record =>
    obtain ⟨u, hu, hset⟩ := exec_pinch ⟨‹_›, hq, hw⟩ hb hdrop hr (.inl hlearn) hm ho hmover
    obtain ⟨h1, h2, h3⟩ := pinched_of_drive (o := o) (now := s.clock.now) (x := t.record.pos) (closing_drive hm)
    have hdec := decided_of_decision hr
    generalize (treatRecord t (s.ch t.chan).ctx).1 = after at hset hdec
    refine ⟨u, hu, fun d hd => hset.other d hd, ?_⟩
    rw [hset.self]
    exact ⟨rfl, rfl, rfl, by simp [Channel.pinched], h1, h2, h3, fun hlow => congrArg some (reversalTarget_of_low hlow),
      fun lt hhigh ht hms => congrArg some (reversalTarget_of_high hhigh ht hms), rfl, rfl, by simp [Channel.pinched], rfl, hdec,
      hset.holds (by simp) (by simp [endReports_of_client hmover]) (by decide)⟩
  case ignored =>
    have hw : completeTake t s = written t (treatRecord t (s.ch t.chan).ctx).1 s := by
      rw [completeTake_of_some hdrop hr hmark, pinch_of_not_closing]
      rwa [written, ch_withLde, ch_updCtx_self]
    rw [exec_ldeCompletion hb (by rw [hw]; exact ha), hw]
    rfl
  case stall =>
    have hend := (Does.refl c s).pinch_of_closing hm ho (single_of_client hmover) .stall 0 (s.ch c).hif.pos
    obtain ⟨-, hq, hw⟩ := hcalm
    rw [hq] at hend
    obtain ⟨u, hu, h⟩ := exec_stall_of_steps (fun d _ => hw d) hs hdue hst
      (by rw [stallOutcome_of_closing hm ho, if_neg hl, if_neg hz]; exact hend) (by simp [Channel.pinched])
    obtain ⟨h1, h2, h3⟩ := pinched_of_drive (o := o) (now := s.clock.now) (x := (s.ch c).hif.pos) (closing_drive hm)
    refine ⟨u, hu, h.other, h.device, ?_⟩
    rw [h.self]
    exact ⟨rfl, rfl, rfl, by simp [Channel.pinched], h1, h3, rfl, rfl, rfl, by simp [Channel.pinched],
      h.holds (d := pinchDetail .stall 0) (by simp) (by simp [endReports_of_client hmover]) (by decide)⟩

end Sys2Proof.Machine
end

section
/-! The drive-direction steps (R5, R9, R12, R51, R85, R163). Settles O24. -/

namespace Sys2Proof.Machine

/-! ## A step of a channel in no companion link (R85) -/

theorem leadersOf_congr {s t : State} (h : ∀ d, (t.ch d).cal.companion = (s.ch d).cal.companion) (c : Chan) :
    t.leadersOf c = s.leadersOf c := by simp only [State.leadersOf, h]

theorem leadersOf_updChan {s : State} {c : Chan} {f : Channel → Channel} (h : (f (s.ch c)).cal.companion = (s.ch c).cal.companion)
    (p : Chan) : (updChan c f s).leadersOf p = s.leadersOf p := by
  refine leadersOf_congr (fun d => ?_) p
  by_cases hd : d = c
  · subst hd
    rw [ch_updChan_self, h]
  · rw [onlyChannel_updChan c f s d hd]

section
variable {s : State} {c : Chan} {o : Order} {d : Dir} {old pair : Pair} {k : Channel} {q : List Chan} {es : List Event}

theorem notifyFollower_of_none (h : (s.ch c).cal.companion = none) : notifyFollower c s = s := by
  unfold notifyFollower
  rw [h]

/-- R151: with no leader, what a move leaves to be done is nothing. -/
theorem settle_noteMoved (ha : s.agenda = []) (hl : s.leadersOf c = []) : settle (noteMoved c s) = s := by
  have hwait : s.waitersOn c = [] := by rw [State.waitersOn, hl]; rfl
  have hmoved : noteMoved c s = { s with agenda := [.moved c []] } := by
    rw [noteMoved, hwait, push, ha]
    rfl
  rw [hmoved, settle, settleN_of_inert fun t ht a => by rw [List.mem_singleton.mp ht]; rfl]
  cases s
  simp_all

/-- R85: the order of a channel that leads none and follows none runs on at a step short of its target. -/
theorem settle_driveStep_of_free (ha : s.agenda = []) (hc : (s.ch c).cal.companion = none) (hl : s.leadersOf c = [])
    (hout : stepOutcome c (countStep c s) = countStep c s) : settle (driveStep c d s) = countStep c s := by
  have hcount : countStep c s = updChan c (fun k => (k.counted s.clock.now)) s := by
    unfold countStep
    dsimp only
    rw [updMoc_eq, updMoc_eq, updChan_updChan, ch_updChan_self]
    rfl
  have hagenda : (countStep c s).agenda = [] := by rw [hcount]; exact ha
  have hcomp : ((countStep c s).ch c).cal.companion = none := by rw [hcount, ch_updChan_self]; exact hc
  have hlead : (countStep c s).leadersOf c = [] := by rw [hcount, leadersOf_updChan rfl, hl]
  unfold driveStep
  dsimp only
  rw [hout]
  cases d with
  | closing => rw [if_neg (by decide), notifyFollower_of_none hcomp, settle_of_nil hagenda]
  | opening => rw [if_pos rfl, notifyFollower_of_none (s := noteMoved c (countStep c s)) hcomp, settle_noteMoved hagenda hlead]

theorem stepOutcome_of_closing_free (hm : (s.ch c).moc.motion = .closing) (ho : (s.ch c).moc.order = some o)
    (ht : atTarget o.dir o.target (s.ch c).hif.pos = false) (hl : s.leadersOf c = []) : stepOutcome c s = s := by
  rw [stepOutcome_of_closing hm ho, if_neg (by simp [ht]), if_neg (by simp [State.clampedAtStep, hl])]

theorem stepOutcome_of_opening_free (hm : (s.ch c).moc.motion = .opening) (ho : (s.ch c).moc.order = some o)
    (ht : atTarget o.dir o.target (s.ch c).hif.pos = false) (hc : (s.ch c).cal.companion = none) : stepOutcome c s = s := by
  have hgate : s.gateAtStep c o = none := by simp [State.gateAtStep, hc]
  rw [stepOutcome_of_opening hm ho, if_neg (by simp [ht]), hgate]
  rfl

/-- R51, R85: the acceptance of such a step. -/
theorem exec_step_of_free (ha : s.agenda = []) (hpop : (s.ch c).cal.populated = true) (hp : (s.ch c).hif.phase = some old)
    (hd : stepDir old pair = some d) (hlow : -1024 ≤ (s.ch c).hif.pos + stepDelta d)
    (hhigh : (s.ch c).hif.pos + stepDelta d ≤ 5119) (hm : (s.ch c).moc.motion = .closing ∧ d = .closing ∨
      (s.ch c).moc.motion = .opening ∧ d = .opening) (ho : (s.ch c).moc.order = some o)
    (ht : atTarget o.dir o.target ((s.ch c).hif.pos + stepDelta d) = false) (hc : (s.ch c).cal.companion = none)
    (hl : s.leadersOf c = []) : exec (.hallAcceptance c pair) s = .next (updChan c (fun k =>
      ({ k with hif := s.stepped pair d k.hif } : Channel).counted s.clock.now) s) := by
  have hdrive : (s.ch c).moc.motion.drive = some d := by rcases hm with ⟨h, rfl⟩ | ⟨h, rfl⟩ <;> rw [h] <;> rfl
  have hcount : countStep c (updHif c (fun _ => s.stepped pair d (s.ch c).hif) s) = updChan c (fun k =>
      ({ k with hif := s.stepped pair d k.hif } : Channel).counted s.clock.now) s := by
    unfold countStep
    dsimp only
    rw [updMoc_eq, updMoc_eq, updChan_updChan, ch_updChan_self, updHif_eq, updChan_updChan, ch_updChan_self]
    exact updChan_congr rfl
  have hself : ((countStep c (updHif c (fun _ => s.stepped pair d (s.ch c).hif) s)).ch c) =
      ({ s.ch c with hif := s.stepped pair d (s.ch c).hif } : Channel).counted s.clock.now := by
    rw [hcount, ch_updChan_self]
  have hlead : (countStep c (updHif c (fun _ => s.stepped pair d (s.ch c).hif) s)).leadersOf c = [] := by
    rw [hcount, leadersOf_updChan rfl, hl]
  rw [exec_accept hpop, accept_drive_step hp hd hlow hhigh hdrive, ← hcount]
  refine congrArg _ (settle_driveStep_of_free (d := d) ha ?_ ?_ ?_)
  · rw [ch_updHif_self]
    exact hc
  · rw [updHif_eq, leadersOf_updChan rfl, hl]
  · rcases hm with ⟨hm, rfl⟩ | ⟨hm, rfl⟩
    · exact stepOutcome_of_closing_free (by rw [hself]; exact hm) (by rw [hself]; exact ho) (by rw [hself]; exact ht) hlead
    · exact stepOutcome_of_opening_free (by rw [hself]; exact hm) (by rw [hself]; exact ho) (by rw [hself]; exact ht)
        (by rw [hself]; exact hc)

/-! ## A step to the target (R85, R163) -/

theorem stepOutcome_of_target (hm : (s.ch c).moc.motion.drive = some d) (hr : (s.ch c).moc.motion ≠ .reversing)
    (ho : (s.ch c).moc.order = some o) (hd : o.dir = d) (ht : atTarget d o.target (s.ch c).hif.pos = true) :
    stepOutcome c s = targetByStep c o s := by
  subst hd
  cases h : (s.ch c).moc.motion with
  | closing => rw [stepOutcome_of_closing h ho, if_pos ht]
  | opening => rw [stepOutcome_of_opening h ho, if_pos ht]
  | reversing => exact absurd h hr
  | idle => rw [h] at hm; cases hm
  | queued => rw [h] at hm; cases hm
  | brakingOrder => rw [h] at hm; cases hm
  | brakingPinch => rw [h] at hm; cases hm
  | waiting => rw [h] at hm; cases hm
  | fault => rw [h] at hm; cases hm

/-- R101: what the end TARGET of order `o` posts ahead of MOVE_ENDED. -/
def softStopRecords (c : Chan) (k : Channel) (o : Order) (ms : Word) : List Event :=
  if o.dir = .opening ∧ (softStop k.cal).map Target.pos = some o.target then
    [⟨.endReached, some c, signedWord k.hif.pos, 1, ms⟩]
  else []

theorem length_softStopRecords {ms : Word} : (softStopRecords c k o ms).length ≤ 1 := by
  unfold softStopRecords
  split <;> simp

theorem mem_softStopRecords {ms : Word} (h : o.dir = .opening ∧ (softStop k.cal).map Target.pos = some o.target) :
    ⟨.endReached, some c, signedWord k.hif.pos, 1, ms⟩ ∈ softStopRecords c k o ms := by
  rw [softStopRecords, if_pos h]
  exact List.mem_singleton_self _

end

namespace Does
variable {c : Chan} {s t u : State} {k : Channel} {q : List Chan} {es : List Event} {o : Order}

/-- R101: the end TARGET of an order of a client. -/
theorem endTarget_of_client (h : Does c s u k q es) (ho : k.moc.order = some o) (hm : o.mover = .client) :
    Does c s (endTarget c u) (k.stopped s.clock.now .idle) (q.filter (· ≠ c))
      (es ++ softStopRecords c k o s.clock.ms ++ [endRecord c k.hif.pos .target s.clock.ms]) := by
  have hpos : (k.stopped s.clock.now .idle).hif.pos = k.hif.pos := off_pos
  unfold Machine.endTarget softStopRecords
  rw [h.self, ho]
  dsimp only
  split
  · have hend := h.endOrderWith_of_client ho hm .target .idle (before := Machine.postAt .endReached c k.hif.pos 1)
      (after := id) (fun hv => hv.postAt .endReached k.hif.pos 1 (by decide)) skip
    rwa [hpos, List.append_nil] at hend
  · have hend := h.endOrderWith_of_client ho hm .target .idle (before := id) (after := id) skip skip
    rwa [hpos, List.append_nil] at hend

theorem changePhase (h : Does c s u k q es) : Does c s (changePhase c u) { k with moc := { k.moc with
    order := k.moc.order.map fun o => { o with dir := .closing, target := .toEnd, phase := .refClosing } } } q es :=
  h.updMoc fun m => { m with order := m.order.map fun o => { o with dir := .closing, target := .toEnd, phase := .refClosing } }

/-- An action that posted nothing left the links as they were. -/
theorem links (h : Does c s t k q []) : t.links = s.links :=
  Vector.ext fun i hi => h.posts.link ⟨i, hi⟩

end Does

/-! ## The stall timer after a step (R51) -/

section
variable {k : Channel} {x : Int} {o : Order}

theorem stallReference_of_short (h : k.moc.motion = .opening ∨ k.level ≠ .learned ∨ (∃ o, k.moc.order = some o ∧
    o.phase = .refClosing) ∨ k.moc.steps < k.cal.nr) : stallReference k x = k.cal.pn := by
  refine if_neg fun ⟨hm, hl, hp, hn⟩ => ?_
  rcases h with h | h | ⟨o, ho, h⟩ | h
  · rw [h] at hm
    cases hm
  · exact h hl
  · simp [ho, h] at hp
  · omega

theorem stallReference_of_learned (hm : k.moc.motion = .closing) (hl : k.level = .learned) (ho : k.moc.order = some o)
    (hp : o.phase ≠ .refClosing) (hn : k.cal.nr ≤ k.moc.steps) :
    stallReference k x = (reference k.cal x).getD k.cal.pn := if_pos ⟨hm, hl, by simp [ho, hp], hn⟩

end

/-- Settles O24: the free steps exactly, the step to the target by what the order is of. -/
theorem closingStepIsCaptured : Obligations.ClosingStepIsCaptured := by
  refine ⟨fun s c o old pair ha _ hpop hm ho hc hl hp hd hlow hhigh ht hdir => ?closing,
    fun s c o old pair ha _ hpop hm ho hdir hc hl hp hd hlow hhigh ht => ?opening,
    fun s c o old pair d ⟨_, hq, hw⟩ _ hpop hm hrev ho hdir hp hd hlow hhigh ht => ?target⟩
  case closing =>
    have hx : (s.ch c).hif.pos + stepDelta .closing = (s.ch c).hif.pos - 1 := rfl
    refine ⟨_, exec_step_of_free ha hpop hp hd (by rw [hx]; omega) (by rw [hx]; omega) (.inl ⟨hm, rfl⟩) ho
      (by rwa [hdir, hx]) hc hl, onlyChannel_updChan c _ s, rfl, ?_⟩
    rw [ch_updChan_self]
    refine ⟨rfl, rfl, rfl, rfl, hm, ho, rfl, rfl, _, rfl, fun hshort => ?_, fun ref hlev hph hn href => ?_⟩
    · exact stallReference_of_short (.inr (by
        rcases hshort with h | h | h
        · exact .inl h
        · exact .inr (.inl ⟨o, ho, h⟩)
        · exact .inr (.inr h)))
    · refine Eq.trans (stallReference_of_learned (o := o) ?_ ?_ ?_ ?_ ?_) ?_
      · exact hm
      · exact hlev
      · exact ho
      · exact hph
      · exact hn
      · exact congrArg (fun r => r.getD (s.ch c).cal.pn) href
  case opening =>
    have hx : (s.ch c).hif.pos + stepDelta .opening = (s.ch c).hif.pos + 1 := rfl
    rw [exec_step_of_free ha hpop hp hd (by rw [hx]; omega) (by rw [hx]; omega) (.inr ⟨hm, rfl⟩) ho (by rwa [hdir, hx]) hc hl]
    refine congrArg _ (updChan_congr ?_)
    have hstall := stallReference_of_short (k := { { s.ch c with hif := s.stepped pair .opening (s.ch c).hif } with
      moc := { (s.ch c).moc with noStep := 0, steps := (s.ch c).moc.steps + 1 } }) (x := (s.ch c).hif.pos + 1) (.inl hm)
    unfold Channel.counted
    rw [show (s.stepped pair .opening (s.ch c).hif).pos = (s.ch c).hif.pos + 1 from rfl, hstall]
    rfl
  case target =>
    have hcount := ((Does.refl c s).updHif fun _ => s.stepped pair d (s.ch c).hif).countStep.of_queue hq
    have hout := stepOutcome_of_target (s := countStep c (updHif c (fun _ => s.stepped pair d (s.ch c).hif) s))
      (by rw [hcount.self]; exact hm) (by rw [hcount.self]; exact hrev) (by rw [hcount.self]; exact ho) hdir
      (by rw [hcount.self]; exact ht)
    have hexec : exec (.hallAcceptance c pair) s = .next (settle (driveStep c d
        (updHif c (fun _ => s.stepped pair d (s.ch c).hif) s))) := by
      rw [exec_accept hpop, accept_drive_step hp hd hlow hhigh hm]
    have hdrive : (({ s.ch c with hif := s.stepped pair d (s.ch c).hif } : Channel).counted s.clock.now).moc.motion.drive ≠
        none := by
      show (s.ch c).moc.motion.drive ≠ none
      rw [hm]
      exact nofun
    refine ⟨fun hmover hphase => ?_, fun hphase => ?_⟩
    · have hend := hcount.endTarget_of_client ho hmover
      have htarget : stepOutcome c (countStep c (updHif c (fun _ => s.stepped pair d (s.ch c).hif) s)) = endTarget c _ :=
        hout.trans (if_neg (by rw [hphase]; decide))
      rw [← htarget] at hend
      have hset := (hend.driveStep (d := d)).settle (by simp) fun d _ => hw d
      have hlen : ∀ a : Event, ([] ++ softStopRecords c (({ s.ch c with hif := s.stepped pair d (s.ch c).hif } : Channel).counted
          s.clock.now) o s.clock.ms ++ [a]).length ≤ 16 := fun a => by
        rw [List.nil_append, List.length_append]
        exact (Nat.add_le_add_right length_softStopRecords _).trans (by simp)
      refine ⟨_, hexec, ⟨hset.other, hset.device, ?_⟩, ?_⟩
      · rw [hset.self, Channel.stopped, Channel.off_of_drive hdrive]
        exact ⟨rfl, rfl, rfl, rfl, rfl, rfl, rfl⟩
      · rw [hset.self]
        refine ⟨rfl, rfl, rfl, hset.holds_end (e := .target) (List.mem_append_right _ (List.mem_singleton.mpr rfl)) (hlen _), fun lt hd' hlt htar => ?_⟩
        have hstop : o.dir = .opening ∧ (softStop (s.ch c).cal).map Target.pos = some o.target := by
          rw [hdir, hd', softStop, hlt, htar]
          exact ⟨rfl, rfl⟩
        refine hset.holds ?_ (hlen _) (by decide)
        exact List.mem_append_left _ (mem_softStopRecords hstop)
    · have hend := (hcount.driveOff.changePhase).updMoc fun k => { k with motion := .brakingOrder }
      have htarget : stepOutcome c (countStep c (updHif c (fun _ => s.stepped pair d (s.ch c).hif) s)) =
          updMoc c (fun k => { k with motion := .brakingOrder }) (changePhase c (driveOff c _)) :=
        hout.trans (if_pos hphase)
      rw [← htarget] at hend
      have hset := (hend.driveStep (d := d)).settle (by simp) fun d _ => hw d
      refine ⟨_, hexec, ⟨hset.other, hset.device, ?_⟩, hset.links, ?_⟩
      · rw [hset.self, Channel.off_of_drive hdrive]
        exact ⟨rfl, rfl, rfl, rfl, rfl, rfl, rfl⟩
      · rw [hset.self, Channel.off_of_drive hdrive]
        refine ⟨rfl, rfl, ?_, rfl⟩
        show (s.ch c).moc.order.map _ = _
        rw [ho]
        rfl

end Sys2Proof.Machine
end

section
/-! The installation of an order (R78, R95), waiting and resuming (R150 to R152), as what they do to their channel. -/

namespace Sys2Proof.Machine

/-! ## What a channel holds after it -/

/-- R78: the channel with order `o`. -/
def Channel.ordered (o : Order) (k : Channel) : Channel := { k with moc := { k.moc with order := some o } }

/-- R78: the channel with the order held, `o'`, replaced by `o`. -/
def Channel.replaced (o' o : Order) (k : Channel) : Channel :=
  { k with moc := { k.moc with order := some o }, learning := o'.leaves k.learning }

/-- R95: the channel with its reversal replaced by `o`, in motion `m`. -/
def Channel.unreversed (o : Order) (m : Motion) (k : Channel) : Channel :=
  { k with moc := { k.moc with motion := m, revTarget := none, order := some o } }

/-- R106: the channel in the start queue. -/
def Channel.queued (k : Channel) : Channel := { k with moc := { k.moc with motion := .queued } }

/-- R150: the channel waiting from `now` on, with hold kind `h`. -/
def Channel.waits (now : Nat) (h : Hold) (k : Channel) : Channel :=
  { k.off now with hold := h, moc := { (k.off now).moc with slot := false, motion := .waiting, wait := some (now + 10000000) } }

/-- R151, R152: the channel without its wait. -/
def Channel.resumed (k : Channel) : Channel := { k with hold := .none, moc := { k.moc with wait := none } }

/-- R78: the channel braking for the other direction. -/
def Channel.braking (now : Nat) (k : Channel) : Channel :=
  { k.off now with moc := { (k.off now).moc with motion := .brakingOrder } }

/-- R163: the channel whose order became the closing half. -/
def Channel.phased (k : Channel) : Channel :=
  { k with moc := { k.moc with order := k.moc.order.map fun o =>
    { o with dir := .closing, target := .toEnd, phase := .refClosing } } }

/-- R130: the channel with its override window closed. -/
def Channel.unwindowed (k : Channel) : Channel :=
  { k with auth := { k.auth with window := none, pinchLevel := 0, overrideLevel := 0 } }

namespace Does
variable {c : Chan} {s t u : State} {k : Channel} {q : List Chan} {es : List Event} {o o' : Order}

/-! ## Holding an order -/

theorem holdOrder (h : Does c s u k q es) (o : Order) : Does c s (holdOrder c o u) (k.ordered o) q es := by
  have hm := h.updMoc fun m => { m with order := some o }
  unfold Machine.holdOrder
  dsimp only
  split
  · split
    · next e he => exact hm.setGroup_some he _
    · exact hm
  · exact hm

/-- R78: an order replaced, whoever installed it. -/
theorem replaceOrder (h : Does c s u k q es) (ho : k.moc.order = some o') (o : Order) :
    ∃ gs, Dones gs ∧ ((∀ g, o'.mover ≠ .group g) → gs = []) ∧ Does c s (replaceOrder c o u) (k.replaced o' o) q
      (es ++ [endRecord c k.hif.pos .replaced s.clock.ms] ++ gs ++
        endReports c k.hif.pos o' k.learning .replaced s.clock.ms) := by
  obtain ⟨gs, hgs, hgroup, hv⟩ := (((h.noteEnd c o'.ownOpen false).postAt .moveEnded k.hif.pos
    (natWord (orderEndCode .replaced)) (by decide)).reportGroup c o' .replaced)
  refine ⟨gs, hgs, hgroup, ?_⟩
  unfold Machine.replaceOrder
  rw [h.self, ho]
  exact (hv.reportFailing o' (by decide) (by decide) k.hif.pos).holdOrder o

/-- R78: an order of a client replaced. -/
theorem replaceOrder_of_client (h : Does c s u k q es) (ho : k.moc.order = some o') (hm : o'.mover = .client) (o : Order) :
    Does c s (Machine.replaceOrder c o u) (k.ordered o) q (es ++ [endRecord c k.hif.pos .replaced s.clock.ms]) := by
  obtain ⟨gs, -, hgroup, hv⟩ := h.replaceOrder ho o
  rw [hgroup (single_of_client hm), endReports_of_client hm, List.append_nil, List.append_nil, Channel.replaced,
    Order.leaves_of_client hm] at hv
  exact hv

theorem replaceOrder_of_none (h : Does c s u k q es) (ho : k.moc.order = none) (o : Order) :
    Does c s (Machine.replaceOrder c o u) (k.ordered o) q es := by
  unfold Machine.replaceOrder
  rw [h.self, ho]
  exact h.holdOrder o

/-- R95: a reversal replaced. -/
theorem replaceReversal (h : Does c s u k q es) (o : Order) (m : Motion) : ∃ ds, Dones ds ∧
    Does c s (replaceReversal c o m u) (k.unreversed o m) q (es ++ [revRecord c k.hif.pos .replaced s.clock.ms] ++ ds) := by
  have hpos : (u.ch c).hif.pos = k.hif.pos := by rw [h.self]
  obtain ⟨ds, hds, hv⟩ := (((h.updMoc fun j => { j with motion := m, revTarget := none }).noteEnd c none false).postAt
    .reversalEnd k.hif.pos (natWord (revEndCode .replaced)) (by decide)).reportGroupReversal c .replaced
  refine ⟨ds, hds, ?_⟩
  unfold Machine.replaceReversal
  rw [hpos]
  exact hv.holdOrder o

/-! ## Waiting, resuming, braking -/

theorem enterWaiting (h : Does c s u k q es) (hold : Hold) :
    Does c s (enterWaiting c hold u) (k.waits s.clock.now hold) q es := by
  unfold Machine.enterWaiting
  rw [h.clock]
  exact ((h.driveOff.releaseSlot).updMoc _).setHold hold

theorem queueUp (h : Does c s u k q es) : Does c s (Machine.joinStartQueue c u) k.queued (Machine.joinStartQueue c u).startQueue es :=
  h.joinStartQueue

theorem unwait (h : Does c s u k q es) :
    Does c s (Machine.setHold c .none (Machine.updMoc c (fun m => { m with wait := none }) u)) k.resumed q es :=
  (h.updMoc _).setHold .none

theorem resume (h : Does c s u k q es) : Does c s (resume c u) k.resumed.queued (Machine.resume c u).startQueue es :=
  h.unwait.queueUp

theorem brake (h : Does c s u k q es) :
    Does c s (Machine.updMoc c (fun m => { m with motion := .brakingOrder }) (Machine.driveOff c u)) (k.braking s.clock.now) q es :=
  h.driveOff.updMoc _

theorem phase (h : Does c s u k q es) : Does c s (Machine.changePhase c u) k.phased q es := h.changePhase

theorem clearOverride (h : Does c s u k q es) : Does c s (clearOverride c u) k.unwindowed q es := h.updAuth _

/-! ## A target met at once (R79, R101) -/

/-- R101: the end TARGET of an order, whoever installed it. -/
theorem endTarget (h : Does c s u k q es) (ho : k.moc.order = some o) :
    ∃ gs, Dones gs ∧ ((∀ g, o.mover ≠ .group g) → gs = []) ∧ Does c s (endTarget c u)
      { k.stopped s.clock.now .idle with learning := o.leaves k.learning } (q.filter (· ≠ c))
      (es ++ softStopRecords c k o s.clock.ms ++ [endRecord c k.hif.pos .target s.clock.ms] ++ gs ++
        endReports c k.hif.pos o k.learning .target s.clock.ms) := by
  have hpos : (k.stopped s.clock.now .idle).hif.pos = k.hif.pos := off_pos
  unfold Machine.endTarget softStopRecords
  rw [h.self, ho]
  dsimp only
  split
  · obtain ⟨gs, v, hgs, hgroup, hv, heq⟩ := h.endOrderWith_upto ho .target .idle
      (before := Machine.postAt .endReached c k.hif.pos 1) (after := id)
      (fun hv => hv.postAt .endReached k.hif.pos 1 (by decide)) skip
    rw [hpos, List.append_nil] at hv
    have hreport := hv.reportFailing o (e := .target) (by decide) (by decide) k.hif.pos
    rw [stopped_learning] at hreport
    refine ⟨gs, hgs, hgroup, ?_⟩
    rw [heq, hpos]
    exact hreport
  · obtain ⟨gs, hgs, hgroup, hend⟩ := h.endPlain ho (e := .target) (by decide) (by decide) .idle
    exact ⟨gs, hgs, hgroup, by rw [List.append_nil]; exact hend⟩

end Does

/-! ## Installation by motion (R78) -/

section
variable {s u : State} {c : Chan} {o : Order}

theorem installBasic_of_queued_same (hm : (u.ch c).moc.motion = .queued) (hd : u.opens c = decide (o.dir = .opening)) :
    installBasic c o u = noteMoved c (replaceOrder c o u) := by
  unfold installBasic
  rw [hm]
  exact congrArg (noteMoved c) (if_pos hd)

theorem installBasic_of_queued_other (hm : (u.ch c).moc.motion = .queued) (hd : u.opens c ≠ decide (o.dir = .opening)) :
    installBasic c o u = noteMoved c (joinStartQueue c (replaceOrder c o u)) := by
  unfold installBasic
  rw [hm]
  exact congrArg (noteMoved c) (if_neg hd)

theorem installBasic_of_braking (hm : (u.ch c).moc.motion = .brakingOrder) :
    installBasic c o u = noteMoved c (replaceOrder c o u) := by
  unfold installBasic
  rw [hm]

theorem installBasic_of_drive_same (h : (u.ch c).moc.motion = .closing ∧ o.dir = .closing ∨
    (u.ch c).moc.motion = .opening ∧ o.dir = .opening) : installBasic c o u = noteMoved c (replaceOrder c o u) := by
  unfold installBasic
  rcases h with ⟨hm, hd⟩ | ⟨hm, hd⟩ <;> rw [hm] <;> exact congrArg (noteMoved c) (if_pos hd)

theorem installBasic_of_drive_other (h : (u.ch c).moc.motion = .closing ∧ o.dir = .opening ∨
    (u.ch c).moc.motion = .opening ∧ o.dir = .closing) : installBasic c o u =
      noteMoved c (updMoc c (fun k => { k with motion := .brakingOrder }) (driveOff c (replaceOrder c o u))) := by
  unfold installBasic
  rcases h with ⟨hm, hd⟩ | ⟨hm, hd⟩ <;> rw [hm] <;> exact congrArg (noteMoved c) (if_neg (by rw [hd]; decide))

theorem installBasic_of_pinch (hm : (u.ch c).moc.motion = .brakingPinch) :
    installBasic c o u = noteMoved c (replaceReversal c o .brakingOrder u) := by
  unfold installBasic
  rw [hm]

theorem installBasic_of_reversing (hm : (u.ch c).moc.motion = .reversing) :
    installBasic c o u = noteMoved c (replaceReversal c o .opening u) := by
  unfold installBasic
  rw [hm]

theorem installBasic_of_waiting (hm : (u.ch c).moc.motion = .waiting) : installBasic c o u =
    noteMoved c (setHold c .none (updMoc c (fun k => { k with wait := none }) (replaceOrder c o u))) := by
  unfold installBasic
  rw [hm]

theorem installBasic_of_fault (hm : (u.ch c).moc.motion = .fault) : installBasic c o u = noteMoved c u := by
  unfold installBasic
  rw [hm]

theorem installBasic_of_idle (hm : (u.ch c).moc.motion = .idle) (ht : atTarget o.dir o.target (u.ch c).hif.pos = false) :
    installBasic c o u = noteMoved c (joinStartQueue c (holdOrder c o u)) := by
  have hpos : ((holdOrder c o u).ch c).hif.pos = (u.ch c).hif.pos := by rw [((Does.refl c u).holdOrder o).self]; rfl
  unfold installBasic
  rw [hm]
  dsimp only
  rw [hpos, if_neg (by simp [ht])]

/-- R79: an order at its target at installation. -/
theorem installBasic_of_idle_at_target (hm : (u.ch c).moc.motion = .idle)
    (ht : atTarget o.dir o.target (u.ch c).hif.pos = true) : installBasic c o u = noteMoved c
      (if o.phase = .refOpening then joinStartQueue c (changePhase c (holdOrder c o u)) else endTarget c (holdOrder c o u)) := by
  have hpos : ((holdOrder c o u).ch c).hif.pos = (u.ch c).hif.pos := by rw [((Does.refl c u).holdOrder o).self]; rfl
  unfold installBasic
  rw [hm]
  dsimp only
  rw [hpos, if_pos ht]

end

namespace Does
variable {c : Chan} {s u : State} {k : Channel} {q : List Chan} {es : List Event}

/-- R78: the order held, if any, is replaced. -/
theorem replacing (h : Does c s u k q es) (o : Order) : ∃ (l : Learning) (fs : List Event),
    Does c s (Machine.replaceOrder c o u) { k.ordered o with learning := l } q fs := by
  cases ho : k.moc.order with
  | none => exact ⟨k.learning, _, h.replaceOrder_of_none ho o⟩
  | some o' =>
    obtain ⟨gs, -, -, hv⟩ := h.replaceOrder ho o
    exact ⟨o'.leaves k.learning, _, hv⟩

/-- R78: whatever its motion, an installation is the channel's own affair. -/
theorem installing (h : Does c s u k q es) (o : Order) : ∃ (k' : Channel) (q' : List Chan) (fs : List Event),
    Does c s (installBasic c o u) k' q' fs := by
  obtain ⟨l, fs, hrep⟩ := h.replacing o
  cases hm : (u.ch c).moc.motion with
  | idle =>
    cases ht : atTarget o.dir o.target (u.ch c).hif.pos with
    | false =>
      rw [installBasic_of_idle hm ht]
      exact ⟨_, _, _, ((h.holdOrder o).queueUp).noteMoved c⟩
    | true =>
      rw [installBasic_of_idle_at_target hm ht]
      split
      · exact ⟨_, _, _, ((h.holdOrder o).phase.queueUp).noteMoved c⟩
      · obtain ⟨gs, -, -, hend⟩ := (h.holdOrder o).endTarget (o := o) rfl
        exact ⟨_, _, _, hend.noteMoved c⟩
  | queued =>
    by_cases hd : u.opens c = decide (o.dir = .opening)
    · rw [installBasic_of_queued_same hm hd]
      exact ⟨_, _, _, hrep.noteMoved c⟩
    · rw [installBasic_of_queued_other hm hd]
      exact ⟨_, _, _, hrep.queueUp.noteMoved c⟩
  | brakingOrder =>
    rw [installBasic_of_braking hm]
    exact ⟨_, _, _, hrep.noteMoved c⟩
  | brakingPinch =>
    obtain ⟨ds, -, hv⟩ := h.replaceReversal o .brakingOrder
    rw [installBasic_of_pinch hm]
    exact ⟨_, _, _, hv.noteMoved c⟩
  | reversing =>
    obtain ⟨ds, -, hv⟩ := h.replaceReversal o .opening
    rw [installBasic_of_reversing hm]
    exact ⟨_, _, _, hv.noteMoved c⟩
  | closing =>
    cases hd : o.dir with
    | closing =>
      rw [installBasic_of_drive_same (.inl ⟨hm, hd⟩)]
      exact ⟨_, _, _, hrep.noteMoved c⟩
    | opening =>
      rw [installBasic_of_drive_other (.inl ⟨hm, hd⟩)]
      exact ⟨_, _, _, hrep.brake.noteMoved c⟩
  | opening =>
    cases hd : o.dir with
    | opening =>
      rw [installBasic_of_drive_same (.inr ⟨hm, hd⟩)]
      exact ⟨_, _, _, hrep.noteMoved c⟩
    | closing =>
      rw [installBasic_of_drive_other (.inr ⟨hm, hd⟩)]
      exact ⟨_, _, _, hrep.brake.noteMoved c⟩
  | waiting =>
    rw [installBasic_of_waiting hm]
    exact ⟨_, _, _, hrep.unwait.noteMoved c⟩
  | fault =>
    rw [installBasic_of_fault hm]
    exact ⟨_, _, _, h.noteMoved c⟩

/-- R148: so is an internal open. -/
theorem installingInternal (h : Does c s u k q es) (o : Order) : ∃ (k' : Channel) (q' : List Chan) (fs : List Event),
    Does c s (installInternal c o u) k' q' fs := by
  obtain ⟨k', q', fs, hi⟩ := h.clearOverride.installing (u.normalized c o)
  unfold installInternal
  dsimp only
  split
  · exact ⟨_, _, _, hi.queueUp⟩
  · exact ⟨_, _, _, hi⟩

/-- R100: the end of whatever order the channel holds, by one of the two companion rules or another plain end. -/
theorem ending (h : Does c s u k q es) {e : OrderEnd} (he : e ≠ .openEnd) (he' : e ≠ .closedEnd) :
    ∃ (k' : Channel) (q' : List Chan) (fs : List Event), Does c s (endOrder c e u) k' q' fs := by
  cases ho : k.moc.order with
  | none => exact ⟨_, _, _, by rw [endOrder_of_none (by rwa [h.self])]; exact h⟩
  | some o =>
    obtain ⟨gs, -, -, hend⟩ := h.endPlain ho he he' .idle
    exact ⟨_, _, _, hend⟩

end Does

end Sys2Proof.Machine
end

section
/-! A channel that entered FAULT stays as it is while what the action left is done. Settles O25. -/

namespace Sys2Proof.Machine

/-- Channel `c` is in FAULT without an order, HIF's part being `h`. -/
structure Parked (c : Chan) (h : Hif) (s : State) : Prop where
  hif : (s.ch c).hif = h
  motion : (s.ch c).moc.motion = .fault
  order : (s.ch c).moc.order = none

namespace Parked
variable {c p f : Chan} {h : Hif} {s t : State} {o : Order} {k : Channel} {q : List Chan} {es : List Event}

theorem of_ch (hp : Parked c h s) (he : t.ch c = s.ch c) : Parked c h t := by
  obtain ⟨h1, h2, h3⟩ := hp
  rw [← he] at h1 h2 h3
  exact ⟨h1, h2, h3⟩

/-- What is another channel's own affair is not its. -/
theorem of_does (hp : Parked c h s) (hd : Does p s t k q es) (hne : p ≠ c) : Parked c h t := hp.of_ch (hd.other c hne.symm)

theorem ne_of_motion (hp : Parked c h s) (hm : (s.ch p).moc.motion ≠ .fault) : p ≠ c := fun e => hm (e ▸ hp.motion)
theorem ne_of_order (hp : Parked c h s) (ho : (s.ch p).moc.order = some o) : p ≠ c := fun e => by
  rw [e, hp.order] at ho
  cases ho

theorem endOrder (hp : Parked c h s) (hne : p ≠ c) {e : OrderEnd} (he : e ≠ .openEnd) (he' : e ≠ .closedEnd) :
    Parked c h (endOrder p e s) := by
  obtain ⟨k', q', fs, hd⟩ := (Does.refl p s).ending he he'
  exact hp.of_does hd hne

theorem endTarget (hp : Parked c h s) (ho : (s.ch p).moc.order = some o) : Parked c h (endTarget p s) := by
  obtain ⟨gs, -, -, hd⟩ := (Does.refl p s).endTarget ho
  exact hp.of_does hd (hp.ne_of_order ho)

theorem enterWaiting (hp : Parked c h s) (hne : p ≠ c) (hold : Hold) : Parked c h (enterWaiting p hold s) :=
  hp.of_does ((Does.refl p s).enterWaiting hold) hne

theorem resume (hp : Parked c h s) (hne : p ≠ c) : Parked c h (resume p s) := hp.of_does (Does.refl p s).resume hne

/-- R44: a drive-on of another channel touches the blank count at most. -/
theorem driveOn (hp : Parked c h s) (hne : p ≠ c) (m : Motion) (d : Dir) : Parked c h (driveOn p m d s) := by
  obtain ⟨-, -, hother⟩ := driveOn_spec p m d s
  obtain ⟨h1, h2, h3⟩ := hp
  have hch := hother c hne.symm
  exact ⟨by rw [hch]; exact h1, by rw [hch]; exact h2, by rw [hch]; exact h3⟩

/-- R147: a follower in FAULT is not opened. -/
theorem gateTest (hp : Parked c h s) (p f : Chan) (o : Order) : Parked c h (gateTest p f o s).2 := by
  unfold Machine.gateTest
  split
  · exact hp
  · split
    · exact hp
    · split
      · next hopen =>
        have hne : f ≠ c := hp.ne_of_motion fun hf => by simp [State.openable, hf] at hopen
        dsimp only
        split
        · exact hp
        · obtain ⟨k', q', fs, hd⟩ := (Does.refl f s).installingInternal (internalOpen p o s.clock.ms)
          exact hp.of_does hd hne
      · exact hp

theorem throughGate (hp : Parked c h s) (hne : p ≠ c) {passed : State → State} (due : Option Chan)
    (hpass : ∀ {v}, Parked c h v → Parked c h (passed v)) : Parked c h (throughGate p o passed due s) := by
  unfold Machine.throughGate
  split
  · exact hpass hp
  · next f =>
    have hg := hp.gateTest p f o
    split <;> rename_i v hv <;> rw [hv] at hg
    · exact hpass hg
    · exact hg.enterWaiting hne .leader
    · exact hg.endOrder hne (by decide) (by decide)

theorem driveGated (hp : Parked c h s) (p : Chan) : Parked c h (driveGated p s) := by
  unfold Machine.driveGated
  split
  · exact hp
  · next o ho =>
    have hne := hp.ne_of_order ho
    split
    · exact hp.throughGate hne _ fun hv => hv.driveOn hne .opening .opening
    · split
      · exact hp.enterWaiting hne .follower
      · exact hp.driveOn hne .closing .closing

theorem startDrive (hp : Parked c h s) (p : Chan) : Parked c h (startDrive p s) := by
  unfold Machine.startDrive
  split
  · exact hp
  · next o ho =>
    split
    · split
      · exact Parked.driveGated (hp.of_does (Does.refl p s).phase (hp.ne_of_order ho)) p
      · exact hp.endTarget ho
    · exact hp.driveGated p

/-- R109: a grant of a slot gives an orderless channel no drive. -/
theorem grantTest (hp : Parked c h s) : Parked c h (grantTest s) := by
  unfold Machine.grantTest
  split
  · split
    · next p _ =>
      refine Parked.startDrive ?_ p
      have hslot := (Does.refl p s).leaveQueue.updMoc fun k => { k with slot := true }
      by_cases hne : p = c
      · subst hne
        exact ⟨by rw [hslot.self]; exact hp.hif, by rw [hslot.self]; exact hp.motion, by rw [hslot.self]; exact hp.order⟩
      · exact hp.of_does hslot hne
    · exact hp
  · exact hp

theorem leaderAfterEnd (hp : Parked c h s) (d : Chan) (own : Option Chan) (ok : Bool) (p : Chan) :
    Parked c h (leaderAfterEnd d own ok s p) := by
  unfold Machine.leaderAfterEnd
  split
  · next hwait =>
    have hne : p ≠ c := hp.ne_of_motion fun hf => by simp [State.waitsOn, hf] at hwait
    split
    · split
      · exact hp.resume hne
      · exact hp.endOrder hne (by decide) (by decide)
    · split
      · exact hp.endOrder hne (by decide) (by decide)
      · split
        · exact hp
        · next o _ =>
          have hg := hp.gateTest p d o
          split <;> rename_i v hv <;> rw [hv] at hg
          · exact hg.resume hne
          · exact hg
          · exact hg.endOrder hne (by decide) (by decide)
  · exact hp

theorem leaderAfterMove (hp : Parked c h s) (d p : Chan) : Parked c h (leaderAfterMove d s p) := by
  unfold Machine.leaderAfterMove
  split
  · next hwait =>
    exact hp.resume (hp.ne_of_motion fun hf => by simp [State.waitsOn, hf] at hwait)
  · exact hp

theorem followerAfter (hp : Parked c h s) (d : Chan) : Parked c h (followerAfter d s) := by
  unfold Machine.followerAfter
  split
  · next hwait =>
    refine hp.resume (hp.ne_of_motion ?_)
    rw [hwait.1]
    decide
  · exact hp

theorem foldl {α : Type} {f : State → α → State} (hf : ∀ {s} a, Parked c h s → Parked c h (f s a)) (l : List α)
    (hp : Parked c h s) : Parked c h (l.foldl f s) := by
  induction l generalizing s with
  | nil => exact hp
  | cons a l ih => exact ih (hf a hp)

theorem settle (hp : Parked c h s) : Parked c h (settle s) := by
  refine settle_induct (fun v a hv => hv.of_ch rfl) (fun t v hv => ?_) hp
  cases t with
  | grantTest => exact hv.grantTest
  | orderEnded d waiters own ok => exact foldl (fun p hu => hu.leaderAfterEnd d own ok p) waiters hv
  | moved d waiters => exact foldl (fun p hu => hu.leaderAfterMove d p) waiters hv
  | followerTest d => exact hv.followerAfter d

end Parked

/-! ## The entry into FAULT, whatever the channel holds (R98) -/

section
variable {now : Nat} {k : Channel}

/-- R82, R9: what a drive-off leaves of HIF's part. -/
theorem off_hif : (k.off now).hif = { k.hif with drift := if k.moc.motion.drive = none then k.hif.drift else 0 } := by
  by_cases h : k.moc.motion.drive = none
  · rw [Channel.off_of_no_drive h, if_pos h]
  · rw [Channel.off_of_drive h, if_neg h]

end

/-- R98: what is left of channel `k` in FAULT with reason `r`. -/
structure Failed (now : Nat) (r : FaultReason) (k k' : Channel) : Prop where
  hif : k'.hif = (k.off now).hif
  motion : k'.moc.motion = .fault
  fault : k'.moc.fault = some r
  order : k'.moc.order = none
  slot : k.moc.order ≠ none ∨ k.reversal → k'.moc.slot = false

theorem failed_stopped (now : Nat) (r : FaultReason) (k : Channel) (l : Learning) :
    Failed now r k { (k.faulted now r).stopped now .fault with learning := l } :=
  ⟨by simp, rfl, by simp, rfl, fun _ => rfl⟩

theorem Does.faulting {c : Chan} {s u : State} {k : Channel} {q : List Chan} {es : List Event} (h : Does c s u k q es)
    (hnf : k.moc.motion ≠ .fault) (r : FaultReason) : ∃ (k' : Channel) (q' : List Chan) (fs : List Event),
    Does c s (enterFault c r u) k' q' (es ++ fs) ∧ Failed s.clock.now r k k' ∧ (q' = q ∨ q' = q.filter (· ≠ c)) := by
  by_cases hrev : k.reversal
  · obtain ⟨ds, -, hd⟩ := h.enterFaultWith_of_reversal hrev r (after := id) skip
    rw [List.append_assoc, List.append_assoc] at hd
    exact ⟨_, _, _, hd, failed_stopped _ _ _ ((k.faulted s.clock.now r).stopped s.clock.now .fault).learning, .inr rfl⟩
  · cases ho : k.moc.order with
    | some o =>
      obtain ⟨gs, -, -, hd⟩ := h.enterFaultWith_of_order hnf hrev ho r (after := id) (by simp) skip
      simp only [List.append_assoc] at hd
      exact ⟨_, _, _, hd, failed_stopped _ _ _ _, .inr rfl⟩
    | none =>
      have hd := h.enterFaultWith_of_free hnf hrev ho r (after := id) skip
      rw [List.append_assoc] at hd
      exact ⟨_, _, _, hd, ⟨rfl, rfl, rfl, by simpa using ho, fun hh => absurd hh (by simp [ho, hrev])⟩, .inl rfl⟩

/-! ## Quadrature errors (R6, R97) -/

section
variable {s : State} {c : Chan}

theorem quadratureError_quiet (h : (s.ch c).moc.motion.drive = none ∨ (s.ch c).hif.quadErrors < 8) :
    quadratureError c s = postAt .quadError c (s.ch c).hif.pos (natWord (min 255 ((s.ch c).hif.quadErrors + 1)))
      (updHif c (fun f => { f with quadErrors := min 255 ((s.ch c).hif.quadErrors + 1) }) s) := by
  have hn : ¬ (s.driveIsOn c = true ∧ 8 < satSucc 255 (s.ch c).hif.quadErrors) := by
    rintro ⟨hd, hlt⟩
    unfold satSucc at hlt
    rcases h with h | h
    · rw [State.driveIsOn, h] at hd
      cases hd
    · omega
  unfold quadratureError
  dsimp only
  rw [if_neg hn]
  rfl

/-- R180: which of HIF and MOC posts first is open. -/
theorem quadratureError_loud (hd : (s.ch c).moc.motion.drive ≠ none) (hn : 8 ≤ (s.ch c).hif.quadErrors) {u : State}
    (hu : u = { updHif c (fun f => { f with quadErrors := min 255 ((s.ch c).hif.quadErrors + 1) }) s with fresh := s.fresh + 1 }) :
    quadratureError c s = enterFault c .quad (postAt .quadError c (s.ch c).hif.pos
      (natWord (min 255 ((s.ch c).hif.quadErrors + 1))) u) ∨
    quadratureError c s = postAt .quadError c (s.ch c).hif.pos (natWord (min 255 ((s.ch c).hif.quadErrors + 1)))
      (enterFault c .quad u) := by
  have hyes : s.driveIsOn c = true ∧ 8 < satSucc 255 (s.ch c).hif.quadErrors :=
    ⟨driveIsOn_of_ne hd, by unfold satSucc; omega⟩
  subst hu
  unfold quadratureError
  dsimp only
  rw [if_pos hyes, drawPostsFirst]
  cases Config.postsFirst (updHif c (fun f => { f with quadErrors := satSucc 255 (s.ch c).hif.quadErrors }) s).fresh with
  | true => exact .inl rfl
  | false => exact .inr rfl

/-- R97: the ninth error under a drive, whoever posts first. -/
theorem quadratureError_failed (hd : (s.ch c).moc.motion.drive ≠ none) (hn : 8 ≤ (s.ch c).hif.quadErrors) :
    ∃ (f : Nat) (k : Channel) (q : List Chan) (es : List Event), Does c { s with fresh := f } (quadratureError c s) k q es ∧
      Failed s.clock.now .quad
        { s.ch c with hif := { (s.ch c).hif with quadErrors := min 255 ((s.ch c).hif.quadErrors + 1) } } k ∧
      (q = s.startQueue ∨ q = s.startQueue.filter (· ≠ c)) := by
  have hnf : (s.ch c).moc.motion ≠ .fault := fun e => hd (by rw [e]; rfl)
  obtain ⟨u, hu⟩ : ∃ u, u = { updHif c (fun f => { f with quadErrors := min 255 ((s.ch c).hif.quadErrors + 1) }) s with
    fresh := s.fresh + 1 } := ⟨_, rfl⟩
  have hbase := ((Does.refl c s).updHif fun f => { f with quadErrors := min 255 ((s.ch c).hif.quadErrors + 1) }).withFresh
    (s.fresh + 1)
  rw [← hu] at hbase
  rcases quadratureError_loud hd hn hu with heq | heq
  · obtain ⟨k, q, fs, hk, hfail, hq⟩ := (hbase.postAt .quadError (s.ch c).hif.pos
      (natWord (min 255 ((s.ch c).hif.quadErrors + 1))) (by decide)).faulting hnf .quad
    rw [heq]
    exact ⟨_, k, q, _, hk, hfail, hq⟩
  · obtain ⟨k, q, fs, hk, hfail, hq⟩ := hbase.faulting hnf .quad
    rw [heq]
    exact ⟨_, k, q, _, hk.postAt .quadError _ _ (by decide), hfail, hq⟩

end

/-! ## Contrary steps (R10, R97) -/

section
variable {s : State} {c : Chan} {old pair : Pair} {d drive : Dir}

/-- R10: HIF's part after a contrary step of direction `d`. -/
def State.contraried (s : State) (pair : Pair) (d : Dir) (h : Hif) : Hif :=
  { s.stepped pair d h with contrary := min 255 (h.contrary + 1) }

theorem accept_contrary (hp : (s.ch c).hif.phase = some old) (hd : stepDir old pair = some d)
    (hlow : -1024 ≤ (s.ch c).hif.pos + stepDelta d) (hhigh : (s.ch c).hif.pos + stepDelta d ≤ 5119)
    (hdrive : (s.ch c).moc.motion.drive = some drive) (hne : d ≠ drive) : accept c pair s =
      if 4 ≤ (s.ch c).hif.contrary then enterFault c .wiring (updHif c (s.contraried pair d) s)
      else updHif c (s.contraried pair d) s := by
  have hpos : ((updHif c (Hif.accepted pair) s).ch c).hif.pos = (s.ch c).hif.pos := by rw [ch_updHif_self]; rfl
  have hcond : (4 < satSucc 255 (s.ch c).hif.contrary) = (4 ≤ (s.ch c).hif.contrary) := by
    unfold satSucc
    exact propext (by omega)
  rw [accept_step hp hd, hallStep_within (by rwa [hpos]) (by rwa [hpos]), hpos]
  have hstate : updHif c (fun h => ({ h with contrary := satSucc 255 (s.ch c).hif.contrary } : Hif).capture
      (s.captureOf ((s.ch c).hif.pos + stepDelta d) d)) (updHif c (fun h => { h with pos := (s.ch c).hif.pos + stepDelta d })
        (updHif c (Hif.accepted pair) s)) = updHif c (s.contraried pair d) s := by
    simp only [updHif_eq, updChan_updChan]
    refine updChan_congr ?_
    simp only [Hif.capture_eq, State.captureOf]
    rfl
  unfold classifyStep
  simp only [ch_updHif_self, hdrive, if_neg (Ne.symm hne)]
  unfold contraryStep
  simp only [ch_updHif_self]
  rw [← hstate]
  simp only [← hcond]
  rfl

end

/-- Settles O25: an error by its count and the drive, a contrary step by its count. -/
theorem quadratureErrorCounts : Obligations.QuadratureErrorCounts := by
  refine ⟨fun s c old pair ha _ hpop hp hne hd hnf => ?error, fun s c old pair d drive ha _ hpop hdrive hne hp hd hlow hhigh => ?step⟩
  case error =>
    have hbase := (Does.refl c s).updHif (Hif.accepted pair)
    have hexec : exec (.hallAcceptance c pair) s = .next (settle (quadratureError c (updHif c (Hif.accepted pair) s))) := by
      rw [exec_accept hpop, accept_error hp hne hd]
    obtain ⟨v, hv⟩ : ∃ v, v = updHif c (Hif.accepted pair) s := ⟨_, rfl⟩
    rw [← hv] at hbase hexec
    have hself := hbase.self
    by_cases hquiet : (s.ch c).moc.motion.drive = none ∨ (s.ch c).hif.quadErrors < 8
    · have hq := quadratureError_quiet (s := v) (c := c) (by rw [hself]; exact hquiet)
      rw [hself] at hq
      have hdoes := (hbase.updHif fun f => { f with quadErrors := min 255 ((s.ch c).hif.quadErrors + 1) }).postAt .quadError
        (s.ch c).hif.pos (natWord (min 255 ((s.ch c).hif.quadErrors + 1))) (by decide)
      have hagenda : (quadratureError c v).agenda = [] := by
        rw [hq, hv]
        exact (post_agenda ..).trans ha
      have hdoes := hdoes.of_eq hq
      refine ⟨_, by rw [hexec, settle_of_nil hagenda], ?_⟩
      rw [hdoes.self]
      exact ⟨rfl, rfl, rfl, rfl, fun _ => ⟨hdoes.other, rfl, hdoes.holds (by simp) (by simp) (by decide)⟩,
        fun _ hon hn => absurd hquiet (by simp [hon]; omega)⟩
    · obtain ⟨hon, hn⟩ := not_or.mp hquiet
      obtain ⟨f, k, q, es, hk, hfail, hq⟩ := quadratureError_failed (s := v) (c := c) (by rw [hself]; exact hon)
        (by rw [hself]; exact Nat.not_lt.mp hn)
      rw [hself] at hfail
      have hpark : Parked c k.hif (quadratureError c v) :=
        ⟨by rw [hk.self], by rw [hk.self]; exact hfail.motion, by rw [hk.self]; exact hfail.order⟩
      have hhif := hpark.settle.hif.trans hfail.hif
      rw [off_hif] at hhif
      refine ⟨_, hexec, ?_⟩
      rw [hhif]
      refine ⟨rfl, rfl, rfl, rfl, fun h => absurd h hquiet, fun ⟨hrow, _⟩ _ _ hempty hw => ?_⟩
      have hqueue : q = [] := by
        have hvq : v.startQueue = [] := hbase.queue.trans hempty
        rcases hq with e | e <;> simp [e, hvq]
      have hset := (hk.of_queue hqueue).settle (by rw [hfail.motion]; decide) fun d hdc => by
        rw [show ({ v with fresh := f } : State).ch d = v.ch d from rfl, hbase.other d hdc]
        exact hw d
      rw [hset.self]
      refine ⟨hfail.motion, hfail.fault, hfail.order, hfail.slot ?_⟩
      obtain ⟨hord, -⟩ := hrow c
      show (s.ch c).moc.order ≠ none ∨ _
      rw [← Option.isSome_iff_ne_none, hord]
      cases hm : (s.ch c).moc.motion with
      | closing => exact .inl (by decide)
      | opening => exact .inl (by decide)
      | reversing => exact .inr (.inr hm)
      | idle => rw [hm] at hon; exact absurd rfl hon
      | queued => rw [hm] at hon; exact absurd rfl hon
      | brakingOrder => rw [hm] at hon; exact absurd rfl hon
      | brakingPinch => rw [hm] at hon; exact absurd rfl hon
      | waiting => rw [hm] at hon; exact absurd rfl hon
      | fault => rw [hm] at hon; exact absurd rfl hon
  case step =>
    have hexec := exec_accept (pair := pair) hpop
    rw [accept_contrary hp hd hlow hhigh hdrive hne] at hexec
    have hon : (s.ch c).moc.motion.drive ≠ none := by rw [hdrive]; exact nofun
    refine ⟨fun hn => ?_, fun hn ⟨_, hq, hw⟩ hclient hheld => ?_⟩
    · rw [if_neg (by omega), settle_of_nil (by exact ha)] at hexec
      rw [hexec]
      refine congrArg _ ?_
      simp only [updHif_eq]
      exact updChan_congr rfl
    · rw [if_pos hn] at hexec
      have hbase := ((Does.refl c s).updHif (s.contraried pair d)).of_queue hq
      have hnf : (s.ch c).moc.motion ≠ .fault := fun e => by rw [e] at hdrive; cases hdrive
      obtain ⟨k, hk⟩ : ∃ k, k = ({ s.ch c with hif := s.contraried pair d (s.ch c).hif } : Channel) := ⟨_, rfl⟩
      rw [← hk] at hbase
      have hkon : k.moc.motion.drive ≠ none := by rw [hk]; exact hon
      suffices hmain : ∃ (l : Learning) (es : List Event), es.length ≤ 16 ∧
          Does c s (settle (enterFault c .wiring (updHif c (s.contraried pair d) s)))
            { (k.faulted s.clock.now .wiring).stopped s.clock.now .fault with learning := l } [] es ∧
          faultRecord c k.hif.pos .wiring s.clock.ms ∈ es ∧
          ((s.ch c).moc.motion ≠ .reversing → endRecord c k.hif.pos .fault s.clock.ms ∈ es) ∧
          ((s.ch c).moc.motion = .reversing → revRecord c k.hif.pos .fault s.clock.ms ∈ es) by
        obtain ⟨l, es, hlen, hset, hfault, hend, hrev⟩ := hmain
        refine ⟨_, hexec, hset.other, hset.device, ?_⟩
        rw [hset.self]
        refine ⟨?_, ?_, rfl, by simp, rfl, rfl, rfl, ?_, ?_, ?_, fun h => ?_, fun h => ?_⟩
        · simp only [stopped_hif, off_faulted, faulted_hif]
          rw [Channel.off_of_drive hkon, hk]
          rfl
        · simp [hk]
        · simp only [stopped_stall, off_faulted, faulted_stall]
          rw [Channel.off_of_drive hkon]
        · simp only [stopped_brakeRunning, off_faulted, faulted_brakeRunning]
          rw [Channel.off_of_drive hkon]
        · rw [hk] at hfault
          exact hset.holds_fault (r := .wiring) hfault hlen
        · rw [hk] at hend
          exact hset.holds_end (e := .fault) (hend h) hlen
        · rw [hk] at hrev
          exact hset.holds_rev (e := .fault) (hrev h) hlen
      by_cases hrev : (s.ch c).moc.motion = .reversing
      · obtain ⟨ds, hds, hend⟩ := hbase.enterFaultWith_of_reversal (by rw [hk]; exact .inr hrev) .wiring (after := id)
          (as := []) Does.skip
        have hset := (show Does c s (enterFault c .wiring _) _ _ _ from hend).settle (by simp) fun d _ => hw d
        have hlen := hset.length_dones hds
        exact ⟨_, _, by simp; omega, hset, by simp, fun h => absurd hrev h, fun _ => by simp⟩
      · obtain ⟨o, ho⟩ := Option.ne_none_iff_exists'.mp (hheld.resolve_right hrev)
        have hpinch : (s.ch c).moc.motion ≠ .brakingPinch := fun e => by rw [e] at hdrive; cases hdrive
        have hend := hbase.enterFaultWith_of_single (o := o) (as := []) (by rw [hk]; exact hnf)
          (by rw [hk]; exact fun h => h.elim hpinch hrev) (by rw [hk]; exact ho) (single_of_client (hclient o ho)) .wiring
          (after := id) (by simp) Does.skip
        have hset := (show Does c s (enterFault c .wiring _) _ _ _ from hend).settle (by simp) fun d _ => hw d
        exact ⟨_, _, by simp [endReports_of_client (hclient o ho)], hset, by simp, fun _ => by simp, fun h => absurd h hrev⟩

end Sys2Proof.Machine
end

section
/-! Steps with the drive off (R4, R9, R11), and the range saturation (R7, R158). Settles O23. -/

namespace Sys2Proof.Machine

/-! ## Steps with the drive off (R9, R11) -/

section
variable {s : State} {c : Chan} {old pair : Pair} {d : Dir}

/-- R5: HIF's part after a step that left no capture record. -/
def Hif.walked (pair : Pair) (d : Dir) (h : Hif) : Hif :=
  { h with phase := some pair, candidate := none, count := 0, pos := h.pos + stepDelta d }

theorem accept_walked (hp : (s.ch c).hif.phase = some old) (hd : stepDir old pair = some d)
    (hlow : -1024 ≤ (s.ch c).hif.pos + stepDelta d) (hhigh : (s.ch c).hif.pos + stepDelta d ≤ 5119) :
    accept c pair s = classifyStep c d (updHif c (Hif.walked pair d) s) := by
  have hpos : ((updHif c (Hif.accepted pair) s).ch c).hif.pos = (s.ch c).hif.pos := by rw [ch_updHif_self]; rfl
  rw [accept_step hp hd, hallStep_within (by rwa [hpos]) (by rwa [hpos]), hpos]
  simp only [updHif_eq, updChan_updChan]
  exact congrArg (classifyStep c d) (updChan_congr rfl)

theorem classifyStep_of_coast (hd : (s.ch c).moc.motion.drive = none) (hc : s.coasting c = true) : classifyStep c d s = s := by
  unfold classifyStep
  rw [hd]
  exact if_pos hc

theorem classifyStep_of_drift (hd : (s.ch c).moc.motion.drive = none) (hc : s.coasting c = false) :
    classifyStep c d s = driftStep c s := by
  unfold classifyStep
  rw [hd]
  exact if_neg (by simp [hc])

theorem driftStep_quiet (h : (s.ch c).hif.drift ≠ 15) :
    driftStep c s = updHif c (fun f => { f with drift := min 255 ((s.ch c).hif.drift + 1) }) s := by
  unfold driftStep
  exact if_neg (by unfold satSucc; omega)

/-- R11: the sixteenth. -/
theorem driftStep_loud (h : (s.ch c).hif.drift = 15) : driftStep c s = postAt .drift c (s.ch c).hif.pos 16
    (updHif c (fun f => { f with drift := min 255 ((s.ch c).hif.drift + 1) }) s) := by
  have hpos : ((updHif c (fun f => { f with drift := satSucc 255 (s.ch c).hif.drift }) s).ch c).hif.pos = (s.ch c).hif.pos := by
    rw [ch_updHif_self]
  unfold driftStep
  dsimp only
  rw [hpos]
  exact if_pos (by rw [h]; rfl)

end

/-! ## The range saturation (R7, R97, R98, R158) -/

/-- R158: what the fall to NONE posts. -/
def loweredRecords (c : Chan) (x : Int) (l : Level) (ms : Word) : List Event :=
  if l = .noneKnown then [] else [⟨.levelChanged, some c, signedWord x, natWord (levelCode .noneKnown), ms⟩]

theorem length_loweredRecords {c : Chan} {x : Int} {l : Level} {ms : Word} : (loweredRecords c x l ms).length ≤ 1 := by
  unfold loweredRecords
  split <;> simp

theorem Does.lower {c : Chan} {s u : State} {k : Channel} {q : List Chan} {es : List Event} (h : Does c s u k q es) (x : Int) :
    Does c s (Machine.setLevel c .noneKnown x u) { k with level := .noneKnown } q (es ++ loweredRecords c x k.level s.clock.ms) := by
  unfold loweredRecords
  by_cases hl : k.level = .noneKnown
  · have hk : ({ k with level := .noneKnown } : Channel) = k := by rw [← hl]
    rw [if_pos hl, List.append_nil, hk]
    exact h.setLevel_same hl x
  · rw [if_neg hl]
    exact h.setLevel_ne hl x

theorem Does.lower_of_level {c : Chan} {s u : State} {k : Channel} {q : List Chan} {es : List Event} {l : Level}
    (h : Does c s u k q es) (hl : k.level = l) (x : Int) : Does c s (Machine.setLevel c .noneKnown x u)
      { k with level := .noneKnown } q (es ++ loweredRecords c x l s.clock.ms) := hl ▸ h.lower x

/-- R7, R98: what a range saturation leaves of channel `k`, whose position is already invalid, and what it posts. -/
structure OutOfRange (c : Chan) (now : Nat) (ms : Word) (k k' : Channel) (es : List Event) : Prop where
  hif : k'.hif = (k.off now).hif
  level : k'.level = .noneKnown
  motion : k'.moc.motion = .fault
  length : es.length ≤ 16
  lowered : ∀ e ∈ loweredRecords c k.hif.pos k.level ms, e ∈ es
  stays : k.moc.motion = .fault → k'.moc = k.moc
  fails : k.moc.motion ≠ .fault → k'.moc.fault = some .range ∧ faultRecord c k.hif.pos .range ms ∈ es
  stops : k.moc.motion ≠ .fault → k.moc.order ≠ none ∨ k.reversal → k'.moc.order = none ∧ k'.moc.slot = false ∧
    k'.moc.revTarget = none ∧ k'.moc.stall = (k.off now).moc.stall
  ends : k.moc.motion ≠ .fault → k.moc.order ≠ none → ¬ k.reversal → es =
    [faultRecord c k.hif.pos .range ms, endRecord c k.hif.pos .fault ms] ++ loweredRecords c k.hif.pos k.level ms
  reverts : k.moc.motion ≠ .fault → k.reversal → revRecord c k.hif.pos .fault ms ∈ es

section
variable {s u : State} {c : Chan} {k : Channel} {o : Order}

theorem rangeSaturation_of_order (h : s.hasOrder c = true) : rangeSaturation c s =
    enterFaultWith c .range (setLevel c .noneKnown (s.ch c).hif.pos) (updHif c (fun f => { f with posValid := false }) s) := by
  have hord : (updHif c (fun f => { f with posValid := false }) s).hasOrder c = true := by
    rw [State.hasOrder, ch_updHif_self]
    exact h
  unfold rangeSaturation
  dsimp only
  rw [if_pos hord, ch_updHif_self]

/-- R180: which of NRM and MOC posts first is open. -/
theorem rangeSaturation_of_free (h : s.hasOrder c = false) {v : State}
    (hv : v = { updHif c (fun f => { f with posValid := false }) s with fresh := s.fresh + 1 }) :
    rangeSaturation c s = enterFault c .range (setLevel c .noneKnown (s.ch c).hif.pos v) ∨
    rangeSaturation c s = enterFaultWith c .range (setLevel c .noneKnown (s.ch c).hif.pos) v := by
  have hord : ¬ (updHif c (fun f => { f with posValid := false }) s).hasOrder c = true := by
    rw [State.hasOrder, ch_updHif_self]
    exact fun e => absurd (h.symm.trans e) (by decide)
  subst hv
  unfold rangeSaturation
  dsimp only
  rw [if_neg hord, ch_updHif_self, drawPostsFirst]
  cases Config.postsFirst (updHif c (fun f => { f with posValid := false }) s).fresh with
  | true => exact .inl rfl
  | false => exact .inr rfl

theorem off_withLevel {now : Nat} {l : Level} : ({ k with level := l } : Channel).off now = { k.off now with level := l } := by
  simp only [Channel.off]
  split <;> rfl

theorem stopped_faulted_withLevel {now : Nat} {r : FaultReason} {m : Motion} {l : Level} :
    (({ k with level := l } : Channel).faulted now r).stopped now m = { (k.faulted now r).stopped now m with level := l } := by
  have hfaulted : ({ k with level := l } : Channel).faulted now r = { k.faulted now r with level := l } := by
    simp only [Channel.faulted, off_withLevel]
  rw [hfaulted]
  simp only [Channel.stopped, off_withLevel]

theorem outOfRange_stopped (hrev : k.reversal) (hnf : k.moc.motion ≠ .fault) {now : Nat} {ms : Word} {k' : Channel}
    {es : List Event} (hk : k' = { (k.faulted now .range).stopped now .fault with level := .noneKnown }) (hlen : es.length ≤ 16)
    (hl : ∀ e ∈ loweredRecords c k.hif.pos k.level ms, e ∈ es) (hf : faultRecord c k.hif.pos .range ms ∈ es)
    (hr : revRecord c k.hif.pos .fault ms ∈ es) : OutOfRange c now ms k k' es := by
  subst hk
  exact ⟨by simp, rfl, rfl, hlen, hl, fun h => absurd h hnf, fun _ => ⟨by simp, hf⟩,
    fun _ _ => ⟨rfl, rfl, rfl, by simp⟩, fun _ _ h => absurd hrev h, fun _ _ => hr⟩

namespace Does

/-- R98: in FAULT only the level falls. -/
theorem outOfRange_of_fault (h : Does c s u k [] []) (hf : k.moc.motion = .fault) (now : Nat) :
    Does c s (enterFaultWith c .range (Machine.setLevel c .noneKnown k.hif.pos) u) { k with level := .noneKnown } []
      (loweredRecords c k.hif.pos k.level s.clock.ms) ∧
    Does c s (enterFault c .range (Machine.setLevel c .noneKnown k.hif.pos u)) { k with level := .noneKnown } []
      (loweredRecords c k.hif.pos k.level s.clock.ms) ∧
    OutOfRange c now s.clock.ms k { k with level := .noneKnown } (loweredRecords c k.hif.pos k.level s.clock.ms) := by
  have hlow := h.lower k.hif.pos
  rw [List.nil_append] at hlow
  have hdrive : k.moc.motion.drive = none := by rw [hf]; rfl
  refine ⟨?_, ?_, ?_⟩
  · have hend := h.enterFaultWith_of_fault (as := loweredRecords c k.hif.pos k.level s.clock.ms) hf .range
      (after := Machine.setLevel c .noneKnown k.hif.pos) hlow
    exact hend
  · have hend := hlow.enterFaultWith_of_fault (as := []) hf .range (after := id) (by rw [List.append_nil]; exact hlow)
    rw [List.append_nil] at hend
    exact hend
  · exact ⟨by rw [Channel.off_of_no_drive hdrive], rfl, hf, length_loweredRecords.trans (by decide), fun _ he => he,
      fun _ => rfl, fun hnf => absurd hf hnf, fun hnf => absurd hf hnf, fun hnf => absurd hf hnf, fun hnf => absurd hf hnf⟩

/-- R98: a reversal ends, the level falling after it or before it. -/
theorem outOfRange_of_reversal (h : Does c s u k [] []) (hrev : k.reversal) : (∃ k' es,
    Does c s (enterFaultWith c .range (Machine.setLevel c .noneKnown k.hif.pos) u) k' [] es ∧
      OutOfRange c s.clock.now s.clock.ms k k' es) ∧
    ∃ k' es, Does c s (enterFault c .range (Machine.setLevel c .noneKnown k.hif.pos u)) k' [] es ∧
      OutOfRange c s.clock.now s.clock.ms k k' es := by
  have hnf : k.moc.motion ≠ .fault := by rcases hrev with e | e <;> rw [e] <;> decide
  have hlowlen := length_loweredRecords (c := c) (x := k.hif.pos) (l := k.level) (ms := s.clock.ms)
  constructor
  · obtain ⟨ds, hds, hend⟩ := h.enterFaultWith_of_reversal (as := loweredRecords c k.hif.pos k.level s.clock.ms)
      (k2 := { (k.faulted s.clock.now .range).stopped s.clock.now .fault with level := .noneKnown }) hrev .range
      (after := Machine.setLevel c .noneKnown k.hif.pos) fun hv =>
        hv.lower_of_level (by simp) k.hif.pos
    have hlen := hend.length_dones hds
    refine ⟨_, _, hend, outOfRange_stopped hrev hnf rfl ?_ ?_ (by simp) (by simp)⟩
    · simp only [List.nil_append, List.length_append, List.length_cons, List.length_nil]
      omega
    · exact fun e he => List.mem_append_right _ he
  · have hlow := h.lower k.hif.pos
    obtain ⟨ds, hds, hend⟩ := hlow.enterFaultWith_of_reversal (as := []) hrev .range (after := id) skip
    have hlen := hend.length_dones hds
    refine ⟨_, _, hend, outOfRange_stopped hrev hnf ?_ ?_ ?_ (by simp) (by simp)⟩
    · exact stopped_faulted_withLevel
    · simp only [List.nil_append, List.length_append, List.length_cons, List.length_nil]
      omega
    · exact fun e he => by simp [he]

/-- R98, R118: an order ends ahead of the level's fall. -/
theorem outOfRange_of_order (h : Does c s u k [] []) (hnf : k.moc.motion ≠ .fault) (hrev : ¬ k.reversal)
    (ho : k.moc.order = some o) (hm : o.mover = .client) : ∃ k' es,
    Does c s (enterFaultWith c .range (Machine.setLevel c .noneKnown k.hif.pos) u) k' [] es ∧
      OutOfRange c s.clock.now s.clock.ms k k' es := by
  have hend := h.enterFaultWith_of_single (as := loweredRecords c k.hif.pos k.level s.clock.ms)
    (k2 := { (k.faulted s.clock.now .range).stopped s.clock.now .fault with level := .noneKnown }) hnf hrev ho
    (single_of_client hm) .range (after := Machine.setLevel c .noneKnown k.hif.pos) (by simp) fun hv =>
      hv.lower_of_level (by simp) k.hif.pos
  rw [endReports_of_client hm, List.append_nil, List.nil_append] at hend
  have hlowlen := length_loweredRecords (c := c) (x := k.hif.pos) (l := k.level) (ms := s.clock.ms)
  refine ⟨_, _, hend, by simp, rfl, rfl, ?_, fun e he => List.mem_append_right _ he, fun h => absurd h hnf,
    fun _ => ⟨by simp, by simp⟩, fun _ _ => ⟨rfl, rfl, rfl, by simp⟩, fun _ _ _ => rfl, fun _ h => absurd h hrev⟩
  simp only [List.length_append, List.length_cons, List.length_nil]
  omega

/-- R98: a channel with neither. -/
theorem outOfRange_of_none (h : Does c s u k [] []) (hnf : k.moc.motion ≠ .fault) (hrev : ¬ k.reversal)
    (ho : k.moc.order = none) : (∃ k' es,
    Does c s (enterFaultWith c .range (Machine.setLevel c .noneKnown k.hif.pos) u) k' [] es ∧
      OutOfRange c s.clock.now s.clock.ms k k' es) ∧
    ∃ k' es, Does c s (enterFault c .range (Machine.setLevel c .noneKnown k.hif.pos u)) k' [] es ∧
      OutOfRange c s.clock.now s.clock.ms k k' es := by
  have hlowlen := length_loweredRecords (c := c) (x := k.hif.pos) (l := k.level) (ms := s.clock.ms)
  constructor
  · have hend := h.enterFaultWith_of_free (as := loweredRecords c k.hif.pos k.level s.clock.ms) hnf hrev ho .range
      (after := Machine.setLevel c .noneKnown k.hif.pos) fun hv =>
        hv.lower_of_level (faulted_level (r := .range)) k.hif.pos
    refine ⟨_, _, hend, rfl, rfl, rfl, ?_, fun e he => List.mem_append_right _ he, fun h => absurd h hnf,
      fun _ => ⟨rfl, by simp⟩, fun _ hh => absurd hh (by simp [ho, hrev]), fun _ hh => absurd ho hh, fun _ hh => absurd hh hrev⟩
    simp only [List.nil_append, List.length_append, List.length_cons, List.length_nil]
    omega
  · have hlow := h.lower k.hif.pos
    have hend := hlow.enterFaultWith_of_free (as := []) hnf hrev ho .range (after := id) skip
    refine ⟨_, _, hend, ?_, ?_, rfl, ?_, fun e he => by simp [he], fun h => absurd h hnf,
      fun _ => ⟨rfl, by simp⟩, fun _ hh => absurd hh (by simp [ho, hrev]), fun _ hh => absurd ho hh, fun _ hh => absurd hh hrev⟩
    · show (({ k with level := .noneKnown } : Channel).off s.clock.now).hif = _
      rw [off_withLevel]
    · show (({ k with level := .noneKnown } : Channel).off s.clock.now).level = _
      rw [off_withLevel]
    · simp only [List.nil_append, List.length_append, List.length_cons, List.length_nil]
      omega

end Does

/-- R7: a range saturation, with nothing queued and an order, if any, of a client. -/
theorem rangeSaturation_spec (h : Does c s u k [] []) (hclient : ∀ o, k.moc.order = some o → o.mover = .client) :
    ∃ (f : Nat) (k' : Channel) (es : List Event), Does c { s with fresh := f } (rangeSaturation c u) k' [] es ∧
      OutOfRange c s.clock.now s.clock.ms { k with hif := { k.hif with posValid := false } } k' es := by
  have hself := h.self
  have hbase := h.updHif fun f => { f with posValid := false }
  cases ho : k.moc.order with
  | some o =>
    have hord : u.hasOrder c = true := by rw [State.hasOrder, hself, ho]; rfl
    rw [rangeSaturation_of_order hord, hself]
    by_cases hf : k.moc.motion = .fault
    · obtain ⟨h1, -, h3⟩ := hbase.outOfRange_of_fault hf s.clock.now
      exact ⟨s.fresh, _, _, h1, h3⟩
    · by_cases hrev : k.reversal
      · obtain ⟨⟨k', es, h1, h2⟩, -⟩ := hbase.outOfRange_of_reversal hrev
        exact ⟨s.fresh, _, _, h1, h2⟩
      · obtain ⟨k', es, h1, h2⟩ := hbase.outOfRange_of_order hf hrev ho (hclient o ho)
        exact ⟨s.fresh, _, _, h1, h2⟩
  | none =>
    have hord : u.hasOrder c = false := by rw [State.hasOrder, hself, ho]; rfl
    have hfresh := hbase.withFresh (u.fresh + 1)
    obtain ⟨v, hv⟩ : ∃ v, v = { Machine.updHif c (fun f => { f with posValid := false }) u with fresh := u.fresh + 1 } := ⟨_, rfl⟩
    rw [← hv] at hfresh
    suffices hboth : (∃ k' es, Does c { s with fresh := u.fresh + 1 }
          (enterFaultWith c .range (Machine.setLevel c .noneKnown k.hif.pos) v) k' [] es ∧
          OutOfRange c s.clock.now s.clock.ms { k with hif := { k.hif with posValid := false } } k' es) ∧
        ∃ k' es, Does c { s with fresh := u.fresh + 1 }
          (enterFault c .range (Machine.setLevel c .noneKnown k.hif.pos v)) k' [] es ∧
          OutOfRange c s.clock.now s.clock.ms { k with hif := { k.hif with posValid := false } } k' es by
      obtain ⟨⟨k1, e1, h1, g1⟩, k2, e2, h2, g2⟩ := hboth
      rcases rangeSaturation_of_free hord hv with heq | heq <;> rw [hself] at heq <;> rw [heq]
      · exact ⟨_, k2, e2, h2, g2⟩
      · exact ⟨_, k1, e1, h1, g1⟩
    by_cases hf : k.moc.motion = .fault
    · obtain ⟨h1, h2, h3⟩ := hfresh.outOfRange_of_fault hf s.clock.now
      exact ⟨⟨_, _, h1, h3⟩, _, _, h2, h3⟩
    · by_cases hrev : k.reversal
      · exact hfresh.outOfRange_of_reversal hrev
      · exact hfresh.outOfRange_of_none hf hrev ho

end

/-- Settles O23: the steps with the drive off exactly, the range saturation by what the channel holds. -/
theorem stepsWithTheDriveOff : Obligations.StepsWithTheDriveOff := by
  refine ⟨fun s c pair ha _ hpop hdrive => ⟨fun hp => ?first, fun old d hp hd hlow hhigh => ⟨fun hcoast => ?coast,
    fun hcoast => ⟨fun hn => ?quiet, fun hn => ?loud⟩⟩⟩,
    fun s c old pair d ⟨_, hq, hw⟩ _ hpop hp hd hbeyond hclient => ?range⟩
  case first =>
    rw [exec_accept hpop, accept_first hp, settle_of_nil (by exact ha)]
    rfl
  case coast =>
    rw [exec_accept hpop, accept_walked hp hd hlow hhigh, classifyStep_of_coast (by rw [ch_updHif_self]; exact hdrive)
      (by rw [State.coasting, ch_updHif_self]; exact hcoast), settle_of_nil (by exact ha)]
    rfl
  case quiet =>
    rw [exec_accept hpop, accept_walked hp hd hlow hhigh, classifyStep_of_drift (by rw [ch_updHif_self]; exact hdrive)
      (by rw [State.coasting, ch_updHif_self]; exact hcoast), driftStep_quiet (by rw [ch_updHif_self]; exact hn),
      settle_of_nil (by exact ha)]
    simp only [updHif_eq, updChan_updChan]
    refine congrArg _ (updChan_congr ?_)
    rw [ch_updChan_self]
    rfl
  case loud =>
    have hcounted : updHif c (fun f => { f with drift := min 255 (((updHif c (Hif.walked pair d) s).ch c).hif.drift + 1) })
        (updHif c (Hif.walked pair d) s) = updHif c (fun h => { h with
          phase := some pair, candidate := none, count := 0, pos := h.pos + stepDelta d, drift := min 255 (h.drift + 1) }) s := by
      simp only [updHif_eq, updChan_updChan]
      refine updChan_congr ?_
      rw [ch_updChan_self]
      rfl
    obtain ⟨u, hu⟩ : ∃ u, u = updHif c (fun h => { h with
      phase := some pair, candidate := none, count := 0, pos := h.pos + stepDelta d, drift := min 255 (h.drift + 1) }) s := ⟨_, rfl⟩
    have hposted := ((Does.refl c s).updHif fun h => { h with
      phase := some pair, candidate := none, count := 0, pos := h.pos + stepDelta d, drift := min 255 (h.drift + 1) }).postAt
        .drift ((s.ch c).hif.pos + stepDelta d) 16 (by decide)
    rw [exec_accept hpop, accept_walked hp hd hlow hhigh, classifyStep_of_drift (by rw [ch_updHif_self]; exact hdrive)
      (by rw [State.coasting, ch_updHif_self]; exact hcoast), driftStep_loud (by rw [ch_updHif_self]; exact hn), hcounted]
    rw [← hu] at hposted ⊢
    have hquiet (x : Int) : settle (postAt .drift c x 16 u) = postAt .drift c x 16 u :=
      settle_of_nil ((post_agenda ..).trans (by rw [hu]; exact ha))
    refine ⟨_, rfl, ?_, ?_⟩
    · rw [hquiet]
      exact onlyLinks_post ..
    · rw [hquiet, ch_updHif_self]
      exact hposted.holds (by simp) (by simp) (by decide)
  case range =>
    have hbase := ((Does.refl c s).updHif (Hif.accepted pair)).of_queue hq
    obtain ⟨f, k, es, hk, hout⟩ := rangeSaturation_spec hbase hclient
    have hbeyond' : ((updHif c (Hif.accepted pair) s).ch c).hif.pos + stepDelta d < -1024 ∨
        5119 < ((updHif c (Hif.accepted pair) s).ch c).hif.pos + stepDelta d := by
      rw [ch_updHif_self]
      exact hbeyond
    have hset := hk.settle (by rw [hout.motion]; decide) fun d _ => hw d
    have hexec : exec (.hallAcceptance c pair) s = .next (settle (rangeSaturation c (updHif c (Hif.accepted pair) s))) := by
      rw [exec_accept hpop, accept_step hp hd, hallStep_beyond hbeyond']
    have hrev : s.inReversal c = true ↔ (s.ch c).reversal := inReversal_iff
    refine ⟨_, hexec, fun d hd => hset.other d hd, ?_⟩
    have hlowered (hl : (s.ch c).level ≠ .noneKnown) : loweredRecords c (s.ch c).hif.pos (s.ch c).level s.clock.ms =
        [⟨.levelChanged, some c, signedWord (s.ch c).hif.pos, natWord (levelCode .noneKnown), s.clock.ms⟩] := if_neg hl
    have hmem (hl : (s.ch c).level ≠ .noneKnown) : ⟨.levelChanged, some c, signedWord (s.ch c).hif.pos,
        natWord (levelCode .noneKnown), s.clock.ms⟩ ∈ es :=
      hout.lowered _ (show _ ∈ loweredRecords c (s.ch c).hif.pos (s.ch c).level s.clock.ms by
        rw [hlowered hl]
        exact List.mem_singleton_self _)
    have hstall : ∀ k : Channel, (k.off s.clock.now).moc.stall = if k.moc.motion.drive = none then k.moc.stall else none := by
      intro k
      by_cases hd : k.moc.motion.drive = none
      · rw [Channel.off_of_no_drive hd, if_pos hd]
      · rw [Channel.off_of_drive hd, if_neg hd]
    have hself := hset.self
    generalize settle (rangeSaturation c (updHif c (Hif.accepted pair) s)) = t at hset hself ⊢
    rw [hself]
    refine ⟨by rw [hout.hif, off_hif]; rfl, hout.level, hout.motion, fun hl => ?_, hout.stays, fun hnf => ?_⟩
    · exact hset.holds (d := natWord (levelCode .noneKnown)) (hmem hl) hout.length (by decide)
    · obtain ⟨hreason, hfault⟩ := hout.fails hnf
      refine ⟨hreason, hset.holds_fault (r := .range) hfault hout.length, fun hheld => ?_, fun ⟨hord, hnr⟩ => ?_, fun hr => ?_,
        fun ⟨hord, hnr⟩ hl y h1 h2 h3 hempty => ?_⟩
      · obtain ⟨h1, h2, h3, h4⟩ := hout.stops hnf (hheld.imp And.left hrev.mp)
        exact ⟨h1, h2, h3, h4.trans (hstall _)⟩
      · have hes := hout.ends hnf hord (mt hrev.mpr (by rw [hnr]; decide))
        exact hset.holds_end (e := .fault)
          (hes ▸ List.mem_append_left _ (List.mem_cons_of_mem _ (List.mem_singleton.mpr rfl))) hout.length
      · exact hset.holds_rev (e := .fault) (hout.reverts hnf (hrev.mp hr)) hout.length
      · have hes := hout.ends hnf hord (mt hrev.mpr (by rw [hnr]; decide))
        have hlow := hlowered hl
        have hlink := hset.posts.link y
        rw [hes] at hlink
        have hfilter : ([faultRecord c (s.ch c).hif.pos .range s.clock.ms, endRecord c (s.ch c).hif.pos .fault s.clock.ms] ++
            loweredRecords c (s.ch c).hif.pos (s.ch c).level s.clock.ms).filter (s.hears · y) =
            [faultRecord c (s.ch c).hif.pos .range s.clock.ms, endRecord c (s.ch c).hif.pos .fault s.clock.ms,
              ⟨.levelChanged, some c, signedWord (s.ch c).hif.pos, natWord (levelCode .noneKnown), s.clock.ms⟩] := by
          rw [hlow]
          refine List.filter_eq_self.mpr fun e he => ?_
          simp only [List.cons_append, List.nil_append, List.mem_cons, List.not_mem_nil, or_false] at he
          rcases he with rfl | rfl | rfl
          · exact (hears_iff (by decide)).mpr h3
          · exact (hears_iff (by decide)).mpr h1
          · exact (hears_iff (by decide)).mpr h2
        rw [hlink]
        refine (congrArg (fun l : List Event => (l.foldl (fun l e => joinQueue e l) (s.link y)).queue) hfilter).trans ?_
        simp [joinQueue, hempty]
        exact ⟨rfl, rfl, rfl⟩

end Sys2Proof.Machine
end

section
/-! An action on channel after channel: what it does to each, and what it posts in all (R116, R25, R142). -/

namespace Sys2Proof.Machine

/-- How many of the records are not GROUP_DONE. -/
def plainCount (es : List Event) : Nat := es.countP fun e => decide (e.kind ≠ .groupDone)

theorem plainCount_append (es fs : List Event) : plainCount (es ++ fs) = plainCount es + plainCount fs := List.countP_append

theorem length_eq_counts (es : List Event) : es.length = plainCount es + doneCount es := by
  rw [List.length_eq_countP_add_countP fun e : Event => decide (e.kind ≠ .groupDone)]
  refine congrArg (plainCount es + ·) (List.countP_congr fun e _ => ?_)
  simp

/-- From `s` to `t` the channels `done` were acted on one after another, `n` records for each at most beside GROUP_DONE, all
meeting `K`; `P` says what became of each, whether it is queued after it, and which records are its own. -/
structure Swept (K : Event → Prop) (n : Nat) (P : Chan → Channel → Channel → Prop → List Event → Prop) (s : State)
    (done : List Chan) (t : State) (es : List Event) : Prop where
  device : SameDevice s t
  posts : Posts s t es
  freed : doneCount es + t.openGroups ≤ s.openGroups
  plain : plainCount es ≤ n * done.length
  kinds : ∀ e ∈ es, K e
  stands : ∀ c, c ∉ done → t.ch c = s.ch c ∧ (c ∈ t.startQueue ↔ c ∈ s.startQueue)
  each : ∀ c ∈ done, ∃ fs, P c (s.ch c) (t.ch c) (c ∈ t.startQueue) fs ∧ ∀ e ∈ fs, e ∈ es

/-- What one step of such an action is to do. -/
def Sweeps (K : Event → Prop) (n : Nat) (P : Chan → Channel → Channel → Prop → List Event → Prop) (s : State)
    (f : State → Chan → State) (c : Chan) : Prop :=
  ∀ u, u.clock = s.clock → u.ch c = s.ch c → (c ∈ u.startQueue ↔ c ∈ s.startQueue) →
    ∃ (k : Channel) (q : List Chan) (fs : List Event), Does c u (f u c) k q fs ∧
      (q = u.startQueue ∨ q = u.startQueue.filter (· ≠ c)) ∧ plainCount fs ≤ n ∧ (∀ e ∈ fs, K e) ∧ P c (s.ch c) k (c ∈ q) fs

namespace Swept
variable {K : Event → Prop} {n : Nat} {P : Chan → Channel → Channel → Prop → List Event → Prop} {s t u : State}
  {l done : List Chan} {es : List Event} {c : Chan}

theorem start (s : State) : Swept K n P s [] s [] :=
  ⟨.refl s, .refl s, by simp [doneCount], by simp [plainCount], by simp, fun _ _ => ⟨rfl, .rfl⟩, nofun⟩

theorem clock (h : Swept K n P s done t es) : t.clock = s.clock := h.device.1

/-- One more channel, by what the step does to it. -/
theorem step {v : State} {k : Channel} {q : List Chan} {fs : List Event} (h : Swept K n P s done u es) (hc : c ∉ done)
    (hd : Does c u v k q fs) (hq : q = u.startQueue ∨ q = u.startQueue.filter (· ≠ c)) (hplain : plainCount fs ≤ n)
    (hkinds : ∀ e ∈ fs, K e) (hP : P c (s.ch c) k (c ∈ q) fs) : Swept K n P s (done ++ [c]) v (es ++ fs) := by
  have hmem : ∀ d, d ≠ c → (d ∈ v.startQueue ↔ d ∈ u.startQueue) := fun d hdc => by
    rw [hd.queue]
    rcases hq with e | e <;> simp [e, hdc]
  refine ⟨h.device.trans hd.device, h.posts.trans hd.posts, ?_, ?_, ?_, fun d hdone => ?_, fun d hdone => ?_⟩
  · have h1 := h.freed
    have h2 := hd.freed
    rw [doneCount_append]
    omega
  · have h1 := h.plain
    rw [plainCount_append, List.length_append, List.length_singleton, Nat.mul_add]
    omega
  · exact fun e he => (List.mem_append.mp he).elim (h.kinds e) (hkinds e)
  · obtain ⟨h1, h2⟩ := not_or.mp (mt List.mem_append.mpr hdone)
    have hdc : d ≠ c := by simpa using h2
    obtain ⟨h3, h4⟩ := h.stands d h1
    exact ⟨(hd.other d hdc).trans h3, (hmem d hdc).trans h4⟩
  · by_cases hdc : d = c
    · subst hdc
      refine ⟨fs, ?_, fun e he => List.mem_append_right _ he⟩
      rw [hd.self, hd.queue]
      exact hP
    · have hdone' : d ∈ done := (List.mem_append.mp hdone).resolve_right (by simpa using hdc)
      obtain ⟨gs, hg, hsub⟩ := h.each d hdone'
      refine ⟨gs, ?_, fun e he => List.mem_append_left _ (hsub e he)⟩
      rw [hd.other d hdc, propext (hmem d hdc)]
      exact hg

theorem next {f : State → Chan → State} (h : Swept K n P s done u es) (hc : c ∉ done) (hf : Sweeps K n P s f c) :
    ∃ fs, Swept K n P s (done ++ [c]) (f u c) (es ++ fs) := by
  obtain ⟨hch, hqueue⟩ := h.stands c hc
  obtain ⟨k, q, fs, hd, hq, hplain, hkinds, hP⟩ := hf u h.clock hch hqueue
  exact ⟨fs, h.step hc hd hq hplain hkinds hP⟩

theorem fold {f : State → Chan → State} (h : Swept K n P s done u es) (hn : (done ++ l).Nodup)
    (hf : ∀ c ∈ l, Sweeps K n P s f c) : ∃ fs, Swept K n P s (done ++ l) (l.foldl f u) fs := by
  induction l generalizing u done es with
  | nil => exact ⟨es, by rwa [List.append_nil]⟩
  | cons c l ih =>
    have hc : c ∉ done := fun hmem => (List.disjoint_of_nodup_append hn) hmem (List.mem_cons_self ..)
    obtain ⟨fs, hnext⟩ := h.next hc (hf c (List.mem_cons_self ..))
    have hassoc : done ++ [c] ++ l = done ++ c :: l := by simp
    obtain ⟨gs, hall⟩ := ih hnext (by rwa [hassoc]) fun d hd => hf d (List.mem_cons_of_mem _ hd)
    exact ⟨gs, by rwa [hassoc] at hall⟩

/-- The action on the channels of a list without repetition. -/
theorem of_fold {f : State → Chan → State} (hn : l.Nodup) (hf : ∀ c ∈ l, Sweeps K n P s f c) :
    ∃ es, Swept K n P s l (l.foldl f s) es := by
  obtain ⟨es, h⟩ := (start (K := K) (n := n) (P := P) s).fold (l := l) (by rwa [List.nil_append]) hf
  exact ⟨es, by rwa [List.nil_append] at h⟩

/-- With at most one record for each channel, no queue overflows. -/
theorem length (h : Swept K 1 P s done t es) (hn : done.Nodup) : es.length ≤ 12 := by
  have h1 := h.plain
  have h2 := h.freed
  have h3 := openGroups_le s
  have h4 : done.length ≤ 8 := by
    have := hn.length_le_card
    simpa using this
  rw [length_eq_counts]
  omega

/-- With nobody waiting and nobody queued after it, what the action left to be done is nothing. -/
theorem settle (h : Swept K n P s done t es) (hq : t.startQueue = []) (hw : ∀ c, (t.ch c).moc.motion ≠ .waiting) :
    Swept K n P s done (settle t) es := by
  rw [settle_of_quiet hq hw]
  exact ⟨h.device.trans (by simp [SameDevice]), h.posts.of_links rfl rfl fun _ => rfl, h.freed, h.plain, h.kinds, h.stands, h.each⟩

/-- A record about a channel that was posted is held by the clients that hear it. -/
theorem holds (h : Swept K n P s done t es) {k : EventKind} {w d : Word} (he : ⟨k, some c, w, d, s.clock.ms⟩ ∈ es)
    (hl : es.length ≤ 16) (hk : k ≠ .clientLapse) : ∀ y, Hears s y k c → Holds t y k (some c) w d :=
  fun _ hh => h.posts.holds h.clock he hl hh hk

end Swept

end Sys2Proof.Machine
end

section
/-! The requests with panel 15 and LOCKOUT SET (R99, R123, R124, R126, R127, R133). Settles O44, O46. -/

namespace Sys2Proof.Machine

/-! ## A served request that acted on several channels -/

section
variable {K : Event → Prop} {n : Nat} {P : Chan → Channel → Channel → Prop → List Event → Prop} {s u : State} {x : Client}
  {l : List Chan} {es : List Event} {c : Chan}

/-- What a sweep between frame and reply posted is held after the reply. -/
theorem Swept.holds_replied (h : Swept K n P (received x s) l u es) {k : EventKind} {w d : Word}
    (he : ⟨k, some c, w, d, s.clock.ms⟩ ∈ es) (hl : es.length ≤ 16) (hk : k ≠ .clientLapse) (r : Result) (data : Word) :
    ∀ y, Hears s y k c → Holds (setReply x r data u) y k (some c) w d :=
  fun y hh => holds_setReply (h.holds he hl hk y hh.received)

theorem startQueue_eq_nil (h : ∀ d, d ∉ s.startQueue) : s.startQueue = [] := List.eq_nil_iff_forall_not_mem.mpr h

/-- A sweep that begins and ends with nothing queued and nobody waiting. -/
theorem Swept.settle_calm (h : Swept K n P s l u es) (hq : s.startQueue = []) (hw : ∀ c, (s.ch c).moc.motion ≠ .waiting)
    (hP : ∀ {c k k' q fs}, P c k k' q fs → (q → c ∈ s.startQueue) ∧ (k'.moc.motion = .idle ∨ k'.moc.motion = k.moc.motion)) :
    Swept K n P s l (Machine.settle u) es := by
  have hempty : u.startQueue = [] := startQueue_eq_nil fun d hd => by
    have hin : d ∈ s.startQueue := by
      by_cases hl : d ∈ l
      · obtain ⟨fs, hp, -⟩ := h.each d hl
        exact (hP hp).1 hd
      · exact (h.stands d hl).2.mp hd
    rw [hq] at hin
    cases hin
  refine h.settle hempty fun c => ?_
  by_cases hl : c ∈ l
  · obtain ⟨fs, hp, -⟩ := h.each c hl
    rcases (hP hp).2 with e | e
    · rw [e]; decide
    · rw [e]; exact hw c
  · rw [(h.stands c hl).1]
    exact hw c

end

/-! ## LOCKOUT SET (R127) -/

/-- R127: what becomes of a channel of the mask. -/
structure Locked (x : Client) (ms : Word) (c : Chan) (k k' : Channel) (queued before : Prop) (fs : List Event) : Prop where
  locked : hasClient k'.auth.lockouts x = true
  claims : k'.auth.claims = k.auth.claims
  queue : queued → before
  motion : k'.moc.motion = .idle ∨ k'.moc.motion = k.moc.motion
  ends : ∀ o, k.moc.order = some o → o.client ≠ x → k'.moc.motion = .idle ∧ k'.moc.order = none ∧ k'.moc.slot = false ∧
    endRecord c k.hif.pos .lockedOut ms ∈ fs
  keeps : ∀ o, k.moc.order = some o → o.client = x → k'.moc = k.moc

section
variable {x : Client} {s : State} {c : Chan}

theorem plainCount_end {x' : Int} {e : OrderEnd} {ms : Word} : plainCount [endRecord c x' e ms] ≤ 1 := List.countP_le_length

theorem sweeps_lock (hclient : ∀ o, (s.ch c).moc.order = some o → o.mover = .client) :
    Sweeps (fun _ => True) 1 (fun c k k' q fs => Locked x s.clock.ms c k k' q (c ∈ s.startQueue) fs) s (lockChannel x) c := by
  intro u hclock hch hqueue
  have hbase := (Does.refl c u).updAuth fun a => { a with lockouts := addClient a.lockouts x }
  rw [hch] at hbase
  have hself : ((updAuth c (fun a => { a with lockouts := addClient a.lockouts x }) u).ch c).moc.order = (s.ch c).moc.order := by
    rw [hbase.self]
  have hlocked : hasClient (addClient (s.ch c).auth.lockouts x) x = true := by rw [hasClient_addClient]; simp
  unfold lockChannel
  dsimp only
  rw [hself]
  cases ho : (s.ch c).moc.order with
  | none =>
    exact ⟨_, _, _, hbase, .inl rfl, by simp [plainCount], nofun, hlocked, rfl, hqueue.mp, .inr rfl, fun _ h => (nomatch ho.symm.trans h),
      fun _ h => (nomatch ho.symm.trans h)⟩
  | some o =>
    dsimp only
    by_cases hx : o.client = x
    · rw [if_pos hx]
      exact ⟨_, _, _, hbase, .inl rfl, by simp [plainCount], nofun, hlocked, rfl, hqueue.mp, .inr rfl, fun o' h hne =>
        absurd ((Option.some.inj (ho.symm.trans h)) ▸ hx) hne, fun _ _ _ => rfl⟩
    · rw [if_neg hx]
      have hend := hbase.endSingle (o := o) ho (single_of_client (hclient o ho)) (e := .lockedOut) (by decide) (by decide) .idle
      rw [endReports_of_client (hclient o ho), hclock] at hend
      refine ⟨_, _, _, hend, .inr rfl, plainCount_end, fun _ _ => trivial, ?_, ?_, fun h => ?_, .inl rfl,
        fun _ _ _ => ⟨rfl, rfl, rfl, ?_⟩, fun o' h he => ?_⟩
      · simpa using hlocked
      · simp
      · simp at h
      · simp
      · rw [ho] at h
        cases h
        exact absurd he hx

theorem lockoutSetRequest_eq {a : Word} {mask : BitVec 8} (ha : panelMask a = some mask) (hm : mask ≠ 0)
    (hright : s.hasRight x .lockout = true) (hr : s.ready = true)
    (hall : ∀ c, inMask mask c = true → (s.ch c).cal.populated = true ∧ s.mayAct x c = true ∧ s.lockedOut x c = false) :
    lockoutSetRequest x 15 0 a s = ⟨.done, maskWord (((maskChans mask).foldl (lockChannel x) s).lockoutMask x),
      (maskChans mask).foldl (lockChannel x) s⟩ := by
  have hpop : ((maskChans mask).any fun c => !s.populated c) = false := List.any_eq_false.mpr fun c hc => by
    simp [State.populated, (hall c (mem_maskChans.mp hc)).1]
  have hmay : ((maskChans mask).any fun c => !s.mayAct x c) = false := List.any_eq_false.mpr fun c hc => by
    simp [(hall c (mem_maskChans.mp hc)).2.1]
  have hlock : (maskChans mask).any (s.lockedOut x) = false := List.any_eq_false.mpr fun c hc => by
    simp [(hall c (mem_maskChans.mp hc)).2.2]
  have hm' : decide (mask = 0) = false := decide_eq_false hm
  simp only [lockoutSetRequest, ha, isPanel15, hm', hpop, hmay, hlock, hright, hr, failsIf]
  rfl

end

/-- Settles O46: the lockout along the mask, channel by channel. -/
theorem lockoutSetLocksAndStops : Obligations.LockoutSetLocksAndStops := by
  intro s x a mask ⟨_, hq, hw⟩ hr ha hm hright hall hclient
  obtain ⟨es, hswept⟩ := Swept.of_fold (maskChans_nodup mask) fun c (_ : c ∈ maskChans mask) =>
    sweeps_lock (x := x) (s := received x s) (c := c) (hclient c)
  have hset := hswept.settle_calm hq hw fun hP => ⟨hP.queue, hP.motion⟩
  have hlen := hset.length (maskChans_nodup mask)
  have hserve := serve_routed_of_body (x := x) hr (lockoutSetRequest_eq (s := received x s) ha hm hright hr hall)
  generalize maskWord (((maskChans mask).foldl (lockChannel x) (received x s)).lockoutMask x) = data at hserve
  generalize settle ((maskChans mask).foldl (lockChannel x) (received x s)) = u at hset hserve
  have heach (c : Chan) (hc : inMask mask c = true) := hset.each c (mem_maskChans.mpr hc)
  refine ⟨_, hserve, (replies_setReply x .done data u).1, fun c hc => ?_, fun c hc => ?_, fun c o hc ho hne => ?_,
    fun c o hc ho he => ?_⟩
  · exact (hset.stands c (by rw [mem_maskChans, hc]; decide)).1
  · obtain ⟨fs, hP, -⟩ := heach c hc
    exact ⟨hP.locked, hP.claims⟩
  · obtain ⟨fs, hP, hsub⟩ := heach c hc
    obtain ⟨h1, h2, h3, h4⟩ := hP.ends o ho hne
    exact ⟨h1, h2, h3, hset.holds_replied (d := natWord (orderEndCode .lockedOut)) (hsub _ h4) (by omega) (by decide) .done data⟩
  · obtain ⟨fs, hP, -⟩ := heach c hc
    exact hP.keeps o ho he

/-! ## Panel 15 (R116): HALT -/

section
variable {x : Client} {s : State} {c : Chan}

theorem mem_panelChans : c ∈ s.panelChans x ↔ (s.ch c).cal.populated = true ∧ s.mayAct x c = true := by
  simp [State.panelChans, State.populated, mem_allChans]

theorem panelChans_nodup : (s.panelChans x).Nodup := allChans_nodup.filter _

/-- R123: the channels that HALT with panel 15 does not pass over. -/
def State.haltChans (s : State) (x : Client) : List Chan := (s.panelChans x).filter fun c => (s.haltRefusal x c).isNone

theorem haltRefusal_isNone (hr : s.ready = true) : (s.haltRefusal x c).isNone = true ↔
    s.lockedOut x c = false ∧ (s.ch c).moc.motion ≠ .fault ∧ s.inReversal c = false := by
  simp only [State.haltRefusal, State.inFault, failsIf, hr]
  by_cases hl : s.lockedOut x c <;> by_cases hf : (s.ch c).moc.motion = .fault <;> by_cases hv : s.inReversal c <;>
    simp [hl, hf, hv, firstFailing]

theorem mem_haltChans (hr : s.ready = true) : c ∈ s.haltChans x ↔ ((s.ch c).cal.populated = true ∧ s.mayAct x c = true) ∧
    s.lockedOut x c = false ∧ (s.ch c).moc.motion ≠ .fault ∧ s.inReversal c = false := by
  rw [State.haltChans, List.mem_filter, mem_panelChans, haltRefusal_isNone hr]

theorem haltRequest_15 (hr : s.hasRight x .move = true) :
    haltRequest x 15 0 0 s = ⟨.done, natWord ((s.haltChans x).filter s.hasOrder).length, (s.haltChans x).foldl haltChannel s⟩ := by
  simp [haltRequest, isPanel15, hr, State.haltChans]

/-- R123: what becomes of a channel. -/
structure Halted (k k' : Channel) (queued before : Prop) : Prop where
  queue : queued → before
  motion : k'.moc.motion = .idle ∨ k'.moc.motion = k.moc.motion
  ends : k.moc.order ≠ none → k'.moc.motion = .idle ∧ k'.moc.order = none
  keeps : k.moc.order = none → k' = k

theorem sweeps_halt (hclient : ∀ o, (s.ch c).moc.order = some o → o.mover = .client) :
    Sweeps (fun _ => True) 1 (fun c k k' q _ => Halted k k' q (c ∈ s.startQueue)) s haltChannel c := by
  intro u _ hch hqueue
  have hbase := Does.refl c u
  cases ho : (s.ch c).moc.order with
  | none =>
    have hnone : haltChannel u c = u := endOrder_of_none (by rw [hch, ho]) .halted
    rw [hnone]
    exact ⟨_, _, _, hbase, .inl rfl, by simp [plainCount], nofun, hqueue.mp, .inr (by rw [hch]), fun h => absurd ho h,
      fun _ => hch⟩
  | some o =>
    have ho' : (u.ch c).moc.order = some o := by rw [hch, ho]
    have hm := hclient o ho
    have hend := hbase.endSingle ho' (single_of_client hm) (e := .halted) (by decide) (by decide) .idle
    rw [endReports_of_client hm] at hend
    refine ⟨_, _, _, hend, .inr rfl, plainCount_end, fun _ _ => trivial, fun h => ?_, .inl rfl, fun _ => ⟨rfl, rfl⟩, fun h => ?_⟩
    · simp at h
    · rw [ho] at h
      cases h

/-- R116, R123. -/
theorem exec_halt_15 (hcalm : s.calm) (hr : s.ready = true) (hright : s.hasRight x .move = true)
    (hclient : ∀ c o, (s.ch c).moc.order = some o → o.mover = .client) :
    ∃ t, exec (.halt x 15 0 0) s = .next t ∧ (t.link x).reply.result = .done ∧
      (∀ c ∈ s.haltChans x, Halted (s.ch c) (t.ch c) (c ∈ t.startQueue) (c ∈ s.startQueue)) ∧
      ∀ c, c ∉ s.haltChans x → t.ch c = s.ch c := by
  obtain ⟨-, hq, hw⟩ := hcalm
  obtain ⟨es, hswept⟩ := Swept.of_fold (panelChans_nodup.filter _) fun c (_ : c ∈ s.haltChans x) =>
    sweeps_halt (s := received x s) (c := c) (hclient c)
  have hset := hswept.settle_calm hq hw fun hP => ⟨hP.queue, hP.motion⟩
  refine ⟨_, serve_routed_of_body hr (haltRequest_15 (s := received x s) hright), (replies_setReply x .done _ _).1, fun c hc => ?_,
    fun c hc => (hset.stands c hc).1⟩
  obtain ⟨_, hP, -⟩ := hset.each c hc
  exact hP

end

/-! ## STOP CLAIM -/

section
variable {x : Client} {s : State} {c : Chan}

/-- R124, R126, R133: the channels that a request with panel 15 does not pass over for FAULT. -/
def State.soundChans (s : State) (x : Client) : List Chan := (s.panelChans x).filter fun c => !s.inFault c

theorem mem_soundChans : c ∈ s.soundChans x ↔
    ((s.ch c).cal.populated = true ∧ s.mayAct x c = true) ∧ (s.ch c).moc.motion ≠ .fault := by
  rw [State.soundChans, List.mem_filter, mem_panelChans]
  simp [State.inFault]

theorem soundChans_nodup : (s.soundChans x).Nodup := panelChans_nodup.filter _

theorem stopClaimRequest_15 (hr : s.hasRight x .claim = true) :
    stopClaimRequest x 15 0 0 s = ⟨.done, natWord (s.soundChans x).length, (s.soundChans x).foldl (claimChannel x) s⟩ := by
  simp [stopClaimRequest, isPanel15, hr, State.soundChans]

/-- R124: what the claim of `x` makes of a channel. -/
structure ClaimedBy (x : Client) (ms : Word) (now : Nat) (c : Chan) (k k' : Channel) (queued before : Prop) (fs : List Event) :
    Prop where
  auth : k'.auth = { k.auth with claims := addClient k.auth.claims x }
  queue : queued → before
  motion : k'.moc.motion = .idle ∨ k'.moc.motion = k.moc.motion
  stops : k.moc.order ≠ none ∨ k.reversal → k'.moc = (k.stopped now .idle).moc
  reversal : k.reversal → revRecord c k.hif.pos .claimed ms ∈ fs
  order : ¬ k.reversal → k.moc.order ≠ none → endRecord c k.hif.pos .claimed ms ∈ fs
  free : ¬ k.reversal → k.moc.order = none → k'.moc = k.moc

theorem plainCount_dones {ds : List Event} (h : Does.Dones ds) : plainCount ds = 0 := by
  refine List.countP_eq_zero.mpr fun e he => ?_
  simp [(h e he).1]

theorem sweeps_claim (hclient : ∀ o, (s.ch c).moc.order = some o → o.mover = .client) :
    Sweeps (fun _ => True) 1 (fun c k k' q fs => ClaimedBy x s.clock.ms s.clock.now c k k' q (c ∈ s.startQueue) fs) s
      (claimChannel x) c := by
  intro u hclock hch hqueue
  have hbase := Does.refl c u
  rw [hch] at hbase
  by_cases hrev : (s.ch c).reversal
  · obtain ⟨ds, hds, h⟩ := hbase.claim_reversal hrev x
    rw [hclock] at h
    refine ⟨_, _, _, h, .inr rfl, ?_, fun _ _ => trivial, by simp [Channel.claimed], fun h => by simp at h, .inl rfl,
      fun _ => rfl, fun _ => by simp, fun h => absurd hrev h, fun h => absurd hrev h⟩
    rw [List.nil_append, plainCount_append, plainCount_dones hds]
    exact List.countP_le_length
  · cases ho : (s.ch c).moc.order with
    | none =>
      exact ⟨_, _, _, hbase.claim_free hrev ho x, .inl rfl, by simp [plainCount], nofun, rfl, hqueue.mp, .inr rfl,
        fun h => absurd h (by simp [ho, hrev]), fun h => absurd h hrev, fun _ h => absurd ho h, fun _ _ => rfl⟩
    | some o =>
      have hm := hclient o ho
      have h := hbase.claim_order hrev ho (single_of_client hm) x
      rw [endReports_of_client hm, hclock] at h
      exact ⟨_, _, _, h, .inr rfl, plainCount_end, fun _ _ => trivial, by simp [Channel.claimed], fun h => by simp at h, .inl rfl,
        fun _ => rfl, fun h => absurd h hrev, fun _ _ => by simp, fun _ h => absurd (ho.symm.trans h) nofun⟩

/-- R116, R124. -/
theorem exec_stopClaim_15 (hcalm : s.calm) (hr : s.ready = true) (hright : s.hasRight x .claim = true)
    (hclient : ∀ c o, (s.ch c).moc.order = some o → o.mover = .client) :
    ∃ t, exec (.stopClaim x 15 0 0) s = .next t ∧ Replies x .done (natWord (s.soundChans x).length) t ∧
      (∀ c ∈ s.soundChans x, ∃ fs, ClaimedBy x s.clock.ms s.clock.now c (s.ch c) (t.ch c) (c ∈ t.startQueue) (c ∈ s.startQueue) fs ∧
        ∀ e w d, ⟨e, some c, w, d, s.clock.ms⟩ ∈ fs → e ≠ .clientLapse → ∀ y, Hears s y e c → Holds t y e (some c) w d) ∧
      ∀ c, c ∉ s.soundChans x → t.ch c = s.ch c := by
  obtain ⟨-, hq, hw⟩ := hcalm
  obtain ⟨es, hswept⟩ := Swept.of_fold soundChans_nodup fun c (_ : c ∈ s.soundChans x) =>
    sweeps_claim (x := x) (s := received x s) (c := c) (hclient c)
  have hset := hswept.settle_calm hq hw fun hP => ⟨hP.queue, hP.motion⟩
  have hlen := hset.length soundChans_nodup
  refine ⟨_, serve_routed_of_body hr (stopClaimRequest_15 (s := received x s) hright), replies_setReply .., fun c hc => ?_,
    fun c hc => (hset.stands c hc).1⟩
  obtain ⟨fs, hP, hsub⟩ := hset.each c hc
  exact ⟨fs, hP, fun e w d he hk => hset.holds_replied (hsub _ he) (by omega) hk .done _⟩

end

/-! ## STOP RELEASE and ACK REVERSAL -/

section
variable {x : Client} {s : State} {c : Chan}

/-- A served request that made one change on each channel of a list, and nothing else. -/
theorem serve_foldl_updChan {body : State → Answer} {w : Word} {f : Channel → Channel} {l : List Chan} (ha : s.agenda = [])
    (hr : s.ready = true) (hn : l.Nodup)
    (hbody : body (received x s) = ⟨.done, w, l.foldl (fun u c => updChan c f u) (received x s)⟩) :
    ∃ t, serve x (routed body) s = .next t ∧ (t.link x).reply.result = .done ∧
      (∀ c ∈ l, t.ch c = f (s.ch c)) ∧ ∀ c, c ∉ l → t.ch c = s.ch c := by
  obtain ⟨hframe, hch⟩ := foldl_updChan f hn (received x s)
  have hserve := serve_routed_of_body hr hbody
  rw [settle_of_nil (by rw [hframe]; exact ha)] at hserve
  exact ⟨_, hserve, (replies_setReply x .done w _).1, fun c hc => (hch c).trans (if_pos hc), fun c hc => (hch c).trans (if_neg hc)⟩

theorem ackReversalRequest_15 : ackReversalRequest x 15 0 0 s =
    ⟨.done, natWord ((s.soundChans x).filter s.latched).length, (s.soundChans x).foldl ackChannel s⟩ := by
  simp [ackReversalRequest, isPanel15, State.soundChans]

theorem stopReleaseRequest_15 : stopReleaseRequest x 15 0 0 s =
    ⟨.done, natWord ((allChans.filter fun c => !s.inFault c).foldl (releaseClaim x) s).claimedCount,
      (allChans.filter fun c => !s.inFault c).foldl (releaseClaim x) s⟩ := by
  simp [stopReleaseRequest, isPanel15]

end

/-! ## PANEL RESTART -/

section
variable {x : Client} {s : State} {c : Chan}

/-- R99: the channels that PANEL RESTART with panel 15 does not pass over. -/
def State.restartChans (s : State) (x : Client) : List Chan := (s.panelChans x).filter fun c => !s.lockedOut x c

theorem mem_restartChans : c ∈ s.restartChans x ↔
    ((s.ch c).cal.populated = true ∧ s.mayAct x c = true) ∧ s.lockedOut x c = false := by
  rw [State.restartChans, List.mem_filter, mem_panelChans]
  simp

theorem panelRestartRequest_15 (hr : s.hasRight x .move = true) (hc : c ∈ s.restartChans x) :
    panelRestartRequest x 15 0 0 s = ⟨.done, 0, (s.restartChans x).foldl restartChannel s⟩ := by
  have hown : (s.panelChans x).isEmpty = false := List.isEmpty_eq_false_iff.mpr (List.ne_nil_of_mem (List.mem_of_mem_filter hc))
  have hsome : (s.restartChans x).isEmpty = false := List.isEmpty_eq_false_iff.mpr (List.ne_nil_of_mem hc)
  unfold State.restartChans at hsome ⊢
  simp [panelRestartRequest, isPanel15, hr, hown, hsome]

theorem restartChannel_calm (hq : s.startQueue = []) : (restartChannel s c).startQueue = [] ∧
    OnlyChannel c s (restartChannel s c) ∧ Restarted (s.ch c) ((restartChannel s c).ch c) := by
  have hbase := Does.refl c s
  rw [hq] at hbase
  obtain ⟨l, f, k', q', es, h, hk, hqueue⟩ := restartChannel_spec hbase
  refine ⟨?_, fun d hd => h.other d hd, by rw [h.self]; exact hk⟩
  rw [h.queue]
  rcases hqueue with e | e <;> simpa using e

/-- R99, R116. -/
theorem exec_panelRestart_15 (hcalm : s.calm) (hr : s.ready = true) (hright : s.hasRight x .move = true)
    (hc : c ∈ s.restartChans x) :
    ∃ t, exec (.panelRestart x 15 0 0) s = .next t ∧ (t.link x).reply.result = .done ∧
      (∀ d ∈ s.restartChans x, Restarted (s.ch d) (t.ch d)) ∧ ∀ d, d ∉ s.restartChans x → t.ch d = s.ch d := by
  obtain ⟨-, hq, hw⟩ := hcalm
  have hn : (s.restartChans x).Nodup := panelChans_nodup.filter _
  obtain ⟨hempty, hout, hin⟩ := foldl_local (I := fun u => u.startQueue = []) (P := fun _ => Restarted) (f := restartChannel)
    (fun _ h => (restartChannel_calm h).1) (fun _ h => (restartChannel_calm h).2.1) (fun _ h => (restartChannel_calm h).2.2)
    (l := s.restartChans x) hn (s := received x s) hq
  have hserve : exec (.panelRestart x 15 0 0) s =
      .next (setReply x .done 0 (settle ((s.restartChans x).foldl restartChannel (received x s)))) :=
    serve_routed_of_body hr (panelRestartRequest_15 (s := received x s) hright hc)
  rw [settle_of_quiet hempty fun d => ?_] at hserve
  · exact ⟨_, hserve, (replies_setReply x .done 0 _).1, hin, hout⟩
  · by_cases hd : d ∈ s.restartChans x
    · rw [(hin d hd).motion]
      decide
    · rw [hout d hd]
      exact hw d

end

/-- Settles O44: each request by the list of the channels that its checks leave. -/
theorem panelFifteenActsOnEach : Obligations.PanelFifteenActsOnEach := by
  intro s x hcalm hr hmove hclaim hclient own
  refine ⟨?_, ?_, ?_, ?_, ?_⟩
  · obtain ⟨t, ht, hres, hin, hout⟩ := exec_halt_15 hcalm hr hmove hclient
    refine ⟨t, ht, hres, fun c ⟨ho, hl, hf, hv, hn⟩ => (hin c ((mem_haltChans hr).mpr ⟨ho, hl, hf, hv⟩)).ends hn, fun c hc => ?_⟩
    by_cases hmem : c ∈ s.haltChans x
    · obtain ⟨h1, h2, h3, h4⟩ := (mem_haltChans hr).mp hmem
      refine (hin c hmem).keeps ?_
      rcases hc with h | h | h | h | h
      · exact absurd h1 h
      · simp [h2] at h
      · exact absurd h h3
      · simp [h4] at h
      · exact h
    · exact hout c hmem
  · obtain ⟨t, ht, ⟨hres, hdata⟩, hin, hout⟩ := exec_stopClaim_15 hcalm hr hclaim hclient
    refine ⟨t, ht, hres, ⟨_, soundChans_nodup, fun c => mem_soundChans, hdata⟩, fun c ho hf => ?_, fun c hc => ?_⟩
    · obtain ⟨fs, hP, hposts⟩ := hin c (mem_soundChans.mpr ⟨ho, hf⟩)
      have hstop (h : (s.ch c).moc.order ≠ none ∨ s.inReversal c = true) := hP.stops (h.imp_right inReversal_iff.mp)
      refine ⟨by rw [hP.auth], fun y => by rw [hP.auth, hasClient_addClient], fun h => ?_, fun h => ?_, fun h hn => ?_, fun h hn => ?_⟩
      · rw [hstop h]
        exact ⟨rfl, rfl, rfl, rfl, by simp, fun hd => by simp [Channel.off_of_drive hd]⟩
      · exact hposts _ _ (natWord (revEndCode .claimed)) (hP.reversal (inReversal_iff.mp h)) (by decide)
      · exact hposts _ _ (natWord (orderEndCode .claimed)) (hP.order (by rw [← inReversal_iff, h]; decide) hn) (by decide)
      · exact hP.free (by rw [← inReversal_iff, h]; decide) hn
    · refine hout c fun hmem => ?_
      obtain ⟨h1, h2⟩ := mem_soundChans.mp hmem
      exact hc.elim (fun h => h h1) h2
  · obtain ⟨t, ht, hres, hin, hout⟩ := serve_foldl_updChan (x := x) (l := s.soundChans x)
      (f := fun k => { k with moc := { k.moc with latched := false } }) hcalm.1 hr soundChans_nodup
      (ackReversalRequest_15 (s := received x s))
    refine ⟨t, ht, hres, fun c hc => hin c (mem_soundChans.mpr hc), fun c hc => hout c fun hmem => ?_⟩
    obtain ⟨h1, h2⟩ := mem_soundChans.mp hmem
    exact hc.elim (fun h => h h1) h2
  · obtain ⟨t, ht, hres, hin, hout⟩ := serve_foldl_updChan (x := x) (l := allChans.filter fun c => !s.inFault c)
      (f := fun k => { k with auth := { k.auth with claims := dropClient k.auth.claims x } }) hcalm.1 hr (allChans_nodup.filter _)
      (stopReleaseRequest_15 (s := received x s))
    refine ⟨t, ht, hres, fun c hc => ?_, fun c hc => hout c ?_⟩
    · rw [hin c (by simpa [State.inFault, mem_allChans] using hc)]
      exact hasClient_dropClient ..
    · simpa [State.inFault] using fun _ => hc
  · rintro ⟨c, ho, hl⟩
    obtain ⟨t, ht, hres, hin, hout⟩ := exec_panelRestart_15 hcalm hr hmove (mem_restartChans.mpr ⟨ho, hl⟩)
    refine ⟨t, ht, hres, fun d hd => ?_, fun d hd => hout d fun hmem => ?_⟩
    · have hP := hin d (mem_restartChans.mpr hd)
      exact ⟨hP.motion, hP.order, by rw [hP.hif], hP.level⟩
    · obtain ⟨h1, h2⟩ := mem_restartChans.mp hmem
      exact hd.elim (fun h => h h1) (by simp [h2])

end Sys2Proof.Machine
end

section
/-! The supply monitor (R18 to R26). Settles O26, O27. -/

namespace Sys2Proof.Machine

/-! ## The runs and the state (R19 to R22) -/

section
variable {r : Nat} {p : Supply}

theorem sample_exitRun_crank (h : p.state = .crank) : (p.sample r).exitRun = if 700 ≤ r then min 255 (p.exitRun + 1) else 0 := by
  simp [Supply.sample, exitOk, h, satSucc]

theorem sample_exitRun_low (h : p.state = .low) : (p.sample r).exitRun = if 850 ≤ r then min 255 (p.exitRun + 1) else 0 := by
  simp [Supply.sample, exitOk, h, satSucc]

theorem sample_exitRun_high (h : p.state = .high) : (p.sample r).exitRun = if r ≤ 1550 then min 255 (p.exitRun + 1) else 0 := by
  simp [Supply.sample, exitOk, h, satSucc]

theorem next_of_low_reading (h : p.reading < 600) : p.next = .crank := if_pos h

theorem next_of_crank (h : 600 ≤ p.reading) (hs : p.state = .crank) : p.next =
    if 40 ≤ p.exitRun then if 4 ≤ p.lowRun then .low else if 4 ≤ p.highRun then .high else .normal else .crank := by
  simp [Supply.next, hs, Nat.not_lt.mpr h]

theorem next_of_normal (h : 600 ≤ p.reading) (hs : p.state = .normal) : p.next =
    if 4 ≤ p.lowRun then .low else if 4 ≤ p.highRun then .high else .normal := by
  simp [Supply.next, hs, Nat.not_lt.mpr h]

theorem next_of_low (h : 600 ≤ p.reading) (hs : p.state = .low) : p.next =
    if 20 ≤ p.exitRun then (if 4 ≤ p.highRun then .high else .normal) else .low := by
  simp [Supply.next, hs, Nat.not_lt.mpr h]

theorem next_of_high (h : 600 ≤ p.reading) (hs : p.state = .high) : p.next =
    if 4 ≤ p.lowRun then .low else if 20 ≤ p.exitRun then .normal else .high := by
  simp [Supply.next, hs, Nat.not_lt.mpr h]

theorem supplyDetail_eq (st : SupplyState) (h : r ≤ 2047) :
    supplyDetail st r = BitVec.ofNat 16 (16384 * supplyCode st) ||| natWord r := by
  apply BitVec.eq_of_toNat_eq
  have hr : r % 2048 = r := by omega
  have hr' : r % 65536 = r := by omega
  have hcode : 16384 * supplyCode st % 65536 = supplyCode st % 4 * 8 * 2048 := by cases st <;> rfl
  rw [supplyDetail, BitVec.toNat_append, BitVec.toNat_append, BitVec.toNat_or, natWord]
  simp only [BitVec.toNat_ofNat, Nat.shiftLeft_eq, hcode, hr, hr', Nat.reducePow]
  simp

end

/-! ## A sample that is judged (R18, R23) -/

section
variable {s : State} {r : Nat}

/-- R23: the device with the state that the sample gives, and SUPPLY_STATE posted. -/
def State.judged (r : Nat) (s : State) : State :=
  post .supplyState none 0 (supplyDetail (s.sup.sample r).next r)
    { s with sup := { s.sup.sample r with state := (s.sup.sample r).next, exitRun := 0 } }

theorem exec_supplySample (hr : r ≤ 2047) :
    exec (.supplySample r) s = .next (settle (evaluateSupply { s with sup := s.sup.sample r })) := by
  have hmin : min r 2047 = r := Nat.min_eq_left hr
  show finish (evaluateSupply { s with sup := s.sup.sample (min r 2047) }) = _
  rw [hmin]
  rfl

theorem sample_settling : (s.sup.sample r).settling = min 4 (s.sup.settling + 1) := rfl

theorem evaluateSupply_standing (h : s.sup.settling < 3 ∨ (s.sup.sample r).next = s.sup.state) :
    evaluateSupply { s with sup := s.sup.sample r } = { s with sup := s.sup.sample r } := by
  refine if_neg fun ⟨h4, hne⟩ => ?_
  rcases h with h | h
  · have h4' : 4 ≤ min 4 (s.sup.settling + 1) := h4
    omega
  · exact hne h

theorem evaluateSupply_judged (h : 3 ≤ s.sup.settling) (hne : (s.sup.sample r).next ≠ s.sup.state) :
    evaluateSupply { s with sup := s.sup.sample r } =
      if (s.sup.sample r).next = .crank then crankShutdown (s.judged r) else s.judged r :=
  if_pos ⟨show 4 ≤ min 4 (s.sup.settling + 1) by omega, hne⟩

theorem judged_frame : OnlyLinks { s with sup := (s.judged r).sup } (s.judged r) ∧
    (s.judged r).sup = { s.sup.sample r with state := (s.sup.sample r).next, exitRun := 0 } := by
  unfold State.judged
  have h := onlyLinks_post .supplyState none 0 (supplyDetail (s.sup.sample r).next r)
    { s with sup := { s.sup.sample r with state := (s.sup.sample r).next, exitRun := 0 } }
  generalize post .supplyState none 0 (supplyDetail (s.sup.sample r).next r)
    { s with sup := { s.sup.sample r with state := (s.sup.sample r).next, exitRun := 0 } } = u at h
  have hsup : u.sup = { s.sup.sample r with state := (s.sup.sample r).next, exitRun := 0 } := by rw [h]
  exact ⟨by rw [hsup]; exact h, hsup⟩

theorem posts_judged : Posts s (s.judged r) [⟨.supplyState, none, 0, supplyDetail (s.sup.sample r).next r, s.clock.ms⟩] := by
  have hbase : Posts s { s with sup := { s.sup.sample r with state := (s.sup.sample r).next, exitRun := 0 } } [] :=
    (Posts.refl s).of_links rfl rfl fun _ => rfl
  exact hbase.post .supplyState none 0 (supplyDetail (s.sup.sample r).next r)

end

/-! ## The shutdown at CRANK (R25, R26) -/

section
variable {s u : State} {c : Chan} {o : Order}

theorem crankChannel_of_order (ho : (s.ch c).moc.order.isSome = true)
    (h : (s.ch c).moc.order.isSome = true → (s.ch c).moc.motion ∈ [.queued, .brakingOrder, .closing, .opening, .waiting]) :
    crankChannel s c = endOrder c .supply s := by
  unfold crankChannel
  have := h ho
  simp only [List.mem_cons, List.not_mem_nil, or_false] at this
  rcases this with e | e | e | e | e <;> rw [e]

theorem crankChannel_of_reversal (h : (s.ch c).reversal) : crankChannel s c = endReversal c .supply s := by
  unfold crankChannel
  rcases h with e | e <;> rw [e]

theorem crankChannel_at_rest (h : (s.ch c).moc.motion = .idle ∨ (s.ch c).moc.motion = .fault) : crankChannel s c = s := by
  unfold crankChannel
  rcases h with e | e <;> rw [e]

/-- A record of an end that the entry into CRANK causes. -/
def EndKind (e : Event) : Prop := e.kind ∈ [EventKind.moveEnded, .reversalEnd, .learnFailed, .groupDone]

/-- R25, R26: what becomes of a channel. -/
structure Shut (k k' : Channel) (queued : Prop) : Prop where
  queue : ¬ queued
  fault : k.moc.motion = .fault → k'.moc.motion = .fault
  idle : k.moc.motion ≠ .fault → k'.moc.motion = .idle
  order : k'.moc.order = none
  slot : k'.moc.slot = false
  revTarget : k'.moc.revTarget = none
  pos : k'.hif.pos = k.hif.pos
  latched : k'.moc.latched = k.moc.latched
  auth : k'.auth = k.auth

theorem Shut.of_stopped {k : Channel} {now : Nat} {l : Learning} {q : Prop} (hq : ¬ q) (hf : k.moc.motion ≠ .fault) :
    Shut k { k.stopped now .idle with learning := l } q where
  queue := hq
  fault h := absurd h hf
  idle _ := rfl
  order := rfl
  slot := rfl
  revTarget := rfl
  pos := by simp
  latched := by simp
  auth := by simp

theorem Shut.not_waiting {k k' : Channel} {q : Prop} (h : Shut k k' q) : k'.moc.motion ≠ .waiting := by
  by_cases hf : k.moc.motion = .fault
  · rw [h.fault hf]
    decide
  · rw [h.idle hf]
    decide

theorem sweeps_crank (hrow : (s.ch c).inTable (c ∈ s.startQueue)) :
    Sweeps EndKind 2 (fun _ k k' q _ => Shut k k' q) s crankChannel c := by
  intro u hclock hch hqueue
  have hbase := Does.refl c u
  rw [hch] at hbase
  obtain ⟨horder, hqueued, hslot, -, -, hrev, -, -, -⟩ := hrow
  have hout : c ∉ u.startQueue.filter (· ≠ c) := by simp
  cases ho : (s.ch c).moc.order with
  | some o =>
    have hsome : (s.ch c).moc.order.isSome = true := by rw [ho]; rfl
    have hmotion := horder.mp hsome
    rw [← hch] at horder hsome
    rw [crankChannel_of_order hsome horder.mp]
    obtain ⟨gs, hgs, -, hend⟩ := hbase.endPlain ho (e := .supply) (by decide) (by decide) .idle
    refine ⟨_, _, _, hend, .inr rfl, ?_, fun e he => ?_, .of_stopped hout fun h => by rw [h] at hmotion; simp at hmotion⟩
    · have h1 : plainCount (endReports c (s.ch c).hif.pos o (s.ch c).learning .supply u.clock.ms) ≤ 1 :=
        List.countP_le_length.trans length_endReports
      have h2 : plainCount [endRecord c (s.ch c).hif.pos .supply u.clock.ms] ≤ 1 := plainCount_end
      rw [List.nil_append, plainCount_append, plainCount_append, plainCount_dones hgs]
      omega
    · unfold EndKind
      simp only [List.nil_append, List.mem_append, List.mem_singleton] at he
      rcases he with (rfl | he) | he
      · simp [endRecord]
      · simp [(hgs e he).1]
      · simp [kind_endReports he]
  | none =>
    have hno : (s.ch c).moc.motion ∉ [Motion.queued, .brakingOrder, .closing, .opening, .waiting] := fun h => by
      simpa [ho] using horder.mpr h
    by_cases hr : (s.ch c).reversal
    · rw [crankChannel_of_reversal (by rwa [hch])]
      obtain ⟨ds, hds, hend⟩ := hbase.endReversalTo .supply .idle
      refine ⟨_, _, _, hend, .inr rfl, ?_, fun e he => ?_, .of_stopped hout fun h => by rcases hr with e | e <;> rw [h] at e <;> cases e⟩
      · have h2 : plainCount [revRecord c (s.ch c).hif.pos .supply u.clock.ms] ≤ 1 := List.countP_le_length
        rw [List.nil_append, plainCount_append, plainCount_dones hds]
        omega
      · unfold EndKind
        simp only [List.nil_append, List.mem_append, List.mem_singleton] at he
        rcases he with rfl | he
        · simp [revRecord]
        · simp [(hds e he).1]
    · have hrest : (s.ch c).moc.motion = .idle ∨ (s.ch c).moc.motion = .fault := by
        unfold Channel.reversal at hr
        cases hm : (s.ch c).moc.motion <;> simp_all
      rw [crankChannel_at_rest (by rwa [hch])]
      refine ⟨_, _, _, hbase, .inl rfl, by simp [plainCount], nofun, fun h => ?_, id, fun h => hrest.resolve_right h, ho, ?_, ?_,
        rfl, rfl, rfl⟩
      · have := hqueued.mp (hqueue.mp h)
        rcases hrest with e | e <;> simp [e] at this
      · rcases hrest with e | e <;> simpa [e] using hslot
      · rcases hrest with e | e <;> simpa [e] using hrev

/-- R25, R26: the shutdown of a device whose channels are in the table. -/
theorem swept_crank (hrow : ∀ c, (s.ch c).inTable (c ∈ s.startQueue)) :
    ∃ es, Swept EndKind 2 (fun _ k k' q _ => Shut k k' q) s allChans (settle (crankShutdown s)) es := by
  obtain ⟨es, hfold⟩ := Swept.of_fold allChans_nodup fun c (_ : c ∈ allChans) => sweeps_crank (hrow c)
  have h : Swept EndKind 2 (fun _ k k' q _ => Shut k k' q) s allChans (crankShutdown s) es := hfold
  have heach (c : Chan) : Shut (s.ch c) ((crankShutdown s).ch c) (c ∈ (crankShutdown s).startQueue) := by
    obtain ⟨_, hP, -⟩ := h.each c (mem_allChans c)
    exact hP
  exact ⟨es, h.settle (startQueue_eq_nil fun c => (heach c).queue) fun c => (heach c).not_waiting⟩

theorem inTable_of_onlyLinks {t : State} (h : OnlyLinks { s with sup := t.sup } t) (hrow : ∀ c, (s.ch c).inTable (c ∈ s.startQueue))
    (c : Chan) : (t.ch c).inTable (c ∈ t.startQueue) := by
  have hch : t.ch c = s.ch c := h.ch c
  have hqueue : t.startQueue = s.startQueue := by rw [h]
  rw [hch, hqueue]
  exact hrow c

end

theorem sup_crankShutdown (s : State) : (settle (crankShutdown s)).sup = s.sup := (Acts.refl s).crankShutdown.settle.sup

/-! ## The queues after many records (R181) -/

theorem queue_foldl_joinQueue (es : List Event) (l : Link) (h : l.queue.length ≤ 16) :
    (es.foldl (fun l e => joinQueue e l) l).queue = (l.queue ++ es).drop ((l.queue ++ es).length - 16) := by
  induction es generalizing l with
  | nil => simp [h]
  | cons e es ih =>
    rw [List.foldl_cons]
    by_cases hf : 16 ≤ l.queue.length
    · have hq : (joinQueue e l).queue = l.queue.tail ++ [e] := by simp [joinQueue, hf]
      have hl : l.queue.length = 16 := by omega
      cases hlq : l.queue with
      | nil => simp [hlq] at hl
      | cons a rest =>
        have hr : rest.length = 15 := by rw [hlq] at hl; simpa using hl
        have hq' : (joinQueue e l).queue = rest ++ [e] := by rw [hq, hlq]; rfl
        rw [ih _ (by rw [hq']; simp [hr]), hq', List.append_assoc, List.singleton_append, List.cons_append]
        have hn : (a :: (rest ++ e :: es)).length - 16 = (rest ++ e :: es).length - 16 + 1 := by
          simp [hr]
          omega
        rw [hn, List.drop_succ_cons]
    · have hq : (joinQueue e l).queue = l.queue ++ [e] := by simp [joinQueue, hf]
      rw [ih _ (by rw [hq]; simp; omega), hq]
      simp

/-- Settles O26: the sample, the judgement and, at CRANK, the shutdown in turn. -/
theorem supplySamplesMoveRunsAndState : Obligations.SupplySamplesMoveRunsAndState := by
  intro s r p ha hr
  refine ⟨fun h => ?_, fun h3 hne => ?_, rfl, rfl, rfl, rfl, fun h => ?_, fun h => ?_, fun h => ?_, sample_exitRun_crank,
    sample_exitRun_low, sample_exitRun_high, next_of_low_reading, ?_⟩
  · rw [exec_supplySample hr, evaluateSupply_standing h, settle_of_nil (s := { s with sup := s.sup.sample r }) ha]
  · obtain ⟨hframe, hsup⟩ := judged_frame (s := s) (r := r)
    have hposts := posts_judged (s := s) (r := r)
    refine ⟨_, exec_supplySample hr, ?_⟩
    rw [evaluateSupply_judged h3 hne]
    refine ⟨?_, ?_⟩
    · split
      · rw [sup_crankShutdown, hsup]
      · rw [settle_of_nil (by rw [hframe]; exact ha), hsup]
    intro posted
    have hposted : posted = ⟨.supplyState, none, 0, supplyDetail (s.sup.sample r).next r, s.clock.ms⟩ := by
      simp only [posted, supplyDetail_eq _ hr]
      generalize (s.sup.sample r).next = st
      cases st <;> rfl
    clear_value posted
    subst hposted
    have hheard {y : Client} (hy : (s.link y).mask.getLsbD 8 = true) :
        s.hears ⟨.supplyState, none, 0, supplyDetail (s.sup.sample r).next r, s.clock.ms⟩ y = true :=
      (hears_none_iff (by decide)).mpr hy
    by_cases hc : (s.sup.sample r).next = .crank
    · refine ⟨fun hn => absurd hc hn, fun _ ⟨hrow, _⟩ y hy hlen => ?_⟩
      rw [if_pos hc]
      obtain ⟨es, h⟩ := swept_crank (inTable_of_onlyLinks hframe hrow)
      refine ⟨es.filter (s.hears · y), fun e he => h.kinds e (List.mem_of_mem_filter he), ?_⟩
      dsimp only
      rw [(hposts.trans h.posts).link, List.filter_append, List.filter_cons_of_pos (p := (s.hears · y)) (hheard hy), queue_foldl_joinQueue _ _ hlen,
        List.append_assoc]
      rfl
    · rw [if_neg hc, settle_of_nil (by rw [hframe]; exact ha)]
      exact ⟨fun _ => ⟨hframe, fun y hy => hposts.mem (List.mem_singleton.mpr rfl) (by simp) (hheard hy)⟩, fun h => absurd h hc⟩
  · rw [sample_settling]
    omega
  · rw [sample_settling, h]
    rfl
  · simp [Supply.sample, exitOk, h]
  · refine ⟨fun h hs h1 => ?_, fun h hs h1 h2 => ?_, fun h hs h1 h2 h3 => ?_, fun h hs h1 h2 h3 => ?_, fun h hs h1 => ?_,
      fun h hs h1 h2 => ?_, fun h hs h1 h2 => ?_, fun h hs h1 => ?_, fun h hs h1 h2 => ?_, fun h hs h1 h2 => ?_, fun h hs h1 => ?_,
      fun h hs h1 h2 => ?_, fun h hs h1 h2 => ?_⟩
    · rw [next_of_crank h hs, if_neg (Nat.not_le.mpr h1)]
    · rw [next_of_crank h hs, if_pos h1, if_pos h2]
    · rw [next_of_crank h hs, if_pos h1, if_neg (Nat.not_le.mpr h2), if_pos h3]
    · rw [next_of_crank h hs, if_pos h1, if_neg (Nat.not_le.mpr h2), if_neg (Nat.not_le.mpr h3)]
    · rw [next_of_normal h hs, if_pos h1]
    · rw [next_of_normal h hs, if_neg (Nat.not_le.mpr h1), if_pos h2]
    · rw [next_of_normal h hs, if_neg (Nat.not_le.mpr h1), if_neg (Nat.not_le.mpr h2)]
    · rw [next_of_low h hs, if_neg (Nat.not_le.mpr h1)]
    · rw [next_of_low h hs, if_pos h1, if_pos h2]
    · rw [next_of_low h hs, if_pos h1, if_neg (Nat.not_le.mpr h2)]
    · rw [next_of_high h hs, if_pos h1]
    · rw [next_of_high h hs, if_neg (Nat.not_le.mpr h1), if_pos h2]
    · rw [next_of_high h hs, if_neg (Nat.not_le.mpr h1), if_neg (Nat.not_le.mpr h2)]

/-- Settles O27: the shutdown along the channels, each by its row of the table. -/
theorem crankShutsEveryDriveOff : Obligations.CrankShutsEveryDriveOff := by
  intro s r ⟨hrow, _⟩ hr h3 hne
  have hnext : (s.sup.sample r).next = .crank := next_of_low_reading hr
  obtain ⟨hframe, hsup⟩ := judged_frame (s := s) (r := r)
  obtain ⟨es, h⟩ := swept_crank (inTable_of_onlyLinks hframe hrow)
  refine ⟨_, exec_supplySample (by omega), ?_⟩
  rw [evaluateSupply_judged h3 (by rw [hnext]; exact hne.symm), if_pos hnext]
  have hch (c : Chan) : (s.judged r).ch c = s.ch c := hframe.ch c
  have heach (c : Chan) : Shut (s.ch c) ((settle (crankShutdown (s.judged r))).ch c)
      (c ∈ (settle (crankShutdown (s.judged r))).startQueue) := by
    obtain ⟨_, hP, -⟩ := h.each c (mem_allChans c)
    rwa [hch] at hP
  refine ⟨?_, startQueue_eq_nil fun c => (heach c).queue, fun c => (heach c).fault, fun c => (heach c).idle,
    fun c => ⟨(heach c).order, (heach c).slot, (heach c).revTarget, (heach c).pos, (heach c).latched, (heach c).auth⟩⟩
  rw [sup_crankShutdown, hsup]
  exact hnext

end Sys2Proof.Machine
end

section
/-! GROUP CANCEL and the entry of the group table (R140 to R142). Settles O50. -/

namespace Sys2Proof.Machine

/-! ## The group table -/

section
variable {u v : State} {g g' : Fin 4} {e : GroupEntry} {c : Chan} {o : MemberOutcome}

theorem group_congr (h : v.groups = u.groups) (g : Fin 4) : v.group g = u.group g := by
  rw [State.group, State.group, h]

theorem finishGroup_of_open (h : u.group g = some e) (hc : e.complete = false) : finishGroup g u = u := by
  simp [finishGroup, h, hc]

theorem group_finishGroup_of_complete (h : u.group g = some e) (hc : e.complete = true) : (finishGroup g u).group g = none := by
  simp [finishGroup, h, hc]

theorem group_finishGroup_ne (h : g ≠ g') : (finishGroup g u).group g' = u.group g' := by
  cases he : u.group g with
  | none => simp [finishGroup, he]
  | some e =>
    cases hc : e.complete with
    | false => rw [finishGroup_of_open he hc]
    | true =>
      simp only [finishGroup, he, hc, if_true]
      rw [group_setGroup, if_neg h]
      exact group_congr (by simp) g'

/-- R140: the entry with the outcome of one member. -/
def GroupEntry.judged (e : GroupEntry) (c : Chan) (o : MemberOutcome) : GroupEntry := { e with members := e.members.set c (some o) }

theorem recordMember_of_live (h : u.group g = some e) (hl : e.members[c] = some .live) :
    recordMember g c o u = finishGroup g (setGroup g (some (e.judged c o)) u) := by
  simp only [recordMember, h, if_pos hl]
  rfl

theorem recordMember_of_not_live (h : ∀ e, u.group g = some e → e.members[c] ≠ some .live) : recordMember g c o u = u := by
  unfold recordMember
  split
  · next e he => rw [if_neg (h e he)]
  · rfl

theorem group_recordMember_ne (h : g ≠ g') : (recordMember g c o u).group g' = u.group g' := by
  by_cases hl : ∀ e, u.group g = some e → e.members[c] ≠ some .live
  · rw [recordMember_of_not_live hl]
  · push Not at hl
    obtain ⟨e, he, hl⟩ := hl
    rw [recordMember_of_live he hl, group_finishGroup_ne h, group_setGroup, if_neg h]

theorem complete_iff : e.complete = true ↔ ∀ c : Chan, e.members[c] ≠ some .live ∧ e.members[c] ≠ some .toJudge := by
  simp only [GroupEntry.complete, List.all_eq_true, mem_allChans, true_implies]
  refine forall_congr' fun c => ?_
  cases e.members[c] with
  | none => simp
  | some o => cases o <;> simp [MemberOutcome.isFinal]

theorem missed_eq : e.missed = maskWhere fun c : Chan => decide (e.members[c] ≠ none ∧ e.members[c] ≠ some .reached) := by
  refine congrArg maskWhere (funext fun c => ?_)
  cases e.members[c] with
  | none => simp
  | some o => cases o <;> simp

end

/-! ## The end of a member's order -/

section
variable {s u : State} {c : Chan} {k : Channel} {q : List Chan} {es : List Event} {o : Order} {g : Fin 4} {entry : GroupEntry}

theorem groups_stopChannel (c : Chan) (m : Motion) (u : State) : (stopChannel c m u).groups = u.groups := by
  have hoff : (driveOff c u).groups = u.groups := by unfold driveOff; split <;> rfl
  have hslot (v : State) : (releaseSlot c v).groups = v.groups := by unfold releaseSlot; split <;> rfl
  exact (hslot _).trans hoff

theorem groups_noteEnd (c : Chan) (own : Option Chan) (ok : Bool) (u : State) : (noteEnd c own ok u).groups = u.groups := by
  rw [noteEnd_eq]

/-- R100: the end of a group's order is reported to GRP last; `before` comes ahead of MOVE_ENDED. -/
theorem endOrderWith_before_of_member (h : Does c s u k q es) (ho : k.moc.order = some o) (hm : o.mover = .group g) (e : OrderEnd)
    (m : Motion) {before : State → State} {bs : List Event} (hg : ∀ v, (before v).groups = v.groups)
    (hb : ∀ {v fs}, Does c s v (k.stopped s.clock.now m) (q.filter (· ≠ c)) fs →
      Does c s (before v) (k.stopped s.clock.now m) (q.filter (· ≠ c)) (fs ++ bs)) :
    ∃ v, Does c s v (k.stopped s.clock.now m) (q.filter (· ≠ c)) (es ++ bs ++ [endRecord c k.hif.pos e s.clock.ms]) ∧
      v.groups = u.groups ∧ endOrderWith c e m before id u = reportGroup c o e v := by
  have hord : (u.ch c).moc.order = some o := by rw [h.self, ho]
  obtain ⟨w, hw⟩ : ∃ w, w = before (noteEnd c o.ownOpen (e = .target || e = .openEnd) (stopChannel c m u)) := ⟨_, rfl⟩
  have hstop : Does c s w (k.stopped s.clock.now m) (q.filter (· ≠ c)) (es ++ bs) := hw ▸ hb ((h.stopChannel m).noteEnd ..)
  have hwg : w.groups = u.groups := by rw [hw, hg, groups_noteEnd, groups_stopChannel]
  have hpos : (w.ch c).hif.pos = k.hif.pos := by rw [hstop.self]; simp
  refine ⟨_, hstop.postAt .moveEnded k.hif.pos (natWord (orderEndCode e)) (by decide), ?_, ?_⟩
  · rw [← hwg]
    simp [postAt]
  · unfold endOrderWith
    rw [hord]
    dsimp only [id_eq]
    rw [← hw, hpos, reportLearning_of_not_learn (by rw [hm]; nofun)]

theorem endOrderWith_of_member (h : Does c s u k q es) (ho : k.moc.order = some o) (hm : o.mover = .group g) (e : OrderEnd)
    (m : Motion) :
    ∃ v, Does c s v (k.stopped s.clock.now m) (q.filter (· ≠ c)) (es ++ [endRecord c k.hif.pos e s.clock.ms]) ∧
      v.groups = u.groups ∧ endOrderWith c e m id id u = reportGroup c o e v := by
  obtain ⟨v, hv, hgroups, heq⟩ := endOrderWith_before_of_member h ho hm e m (before := id) (fun _ => rfl) Does.skip
  rw [List.append_nil] at hv
  exact ⟨v, hv, hgroups, heq⟩

theorem reportGroup_of_member (hm : o.mover = .group g) (hg : u.group g = some entry) {e : OrderEnd} (he : e ≠ .pinch) :
    reportGroup c o e u = recordMember g c (memberEnd entry.dir e) u := by
  simp only [reportGroup, hm, hg, if_neg he]

theorem group_reportGroup_ne (hm : o.mover = .group g) {g' : Fin 4} (h : g ≠ g') (e : OrderEnd) :
    (reportGroup c o e u).group g' = u.group g' := by
  simp only [reportGroup, hm]
  split
  · split
    · rfl
    · exact group_recordMember_ne h
  · rfl

end

/-! ## The members that are cancelled (R142) -/

section
variable {s u : State} {c : Chan} {o : Order} {g : Fin 4} {e : GroupEntry} {x : Client}

/-- R142: by which end the order of a member goes, by its motion. -/
def State.cancelEnd (s : State) (c : Chan) : OrderEnd := if (s.ch c).moc.motion = .queued then .cancelled else .halted

theorem cancelEnd_plain (s : State) (c : Chan) : s.cancelEnd c ≠ .openEnd ∧ s.cancelEnd c ≠ .closedEnd ∧ s.cancelEnd c ≠ .pinch := by
  unfold State.cancelEnd
  split <;> decide

theorem memberEnd_cancelEnd (s : State) (c : Chan) (d : Dir) : memberEnd d (s.cancelEnd c) = .ended (s.cancelEnd c) := by
  unfold State.cancelEnd
  split <;> cases d <;> rfl

theorem holdsGroupOrder_iff : s.holdsGroupOrder g c = true ↔ ∃ o, (s.ch c).moc.order = some o ∧ o.mover = .group g := by
  unfold State.holdsGroupOrder
  cases (s.ch c).moc.order <;> simp

theorem cancelMember_of_holds (h : s.holdsGroupOrder g c = true) : cancelMember g s c = endOrderWith c (s.cancelEnd c) .idle id id s :=
  if_pos h

theorem cancelMember_of_free (h : s.holdsGroupOrder g c = false) : cancelMember g s c = s := if_neg (by simp [h])

/-- R142: what becomes of a channel. -/
structure CancelledBy (s : State) (g : Fin 4) (c : Chan) (k k' : Channel) (queued : Prop) (fs : List Event) : Prop where
  member : s.holdsGroupOrder g c = true → ¬ queued ∧ k'.moc.motion = .idle ∧ k'.moc.order = none ∧ k'.moc.slot = false ∧
    endRecord c k.hif.pos (s.cancelEnd c) s.clock.ms ∈ fs
  free : s.holdsGroupOrder g c = false → k' = k ∧ (queued ↔ c ∈ s.startQueue)

/-- The entry on the way: `done` have been gone through, `es` posted; every live member holds an order of the group. -/
structure Cancelling (s : State) (g : Fin 4) (e : GroupEntry) (done : List Chan) (u : State) (es : List Event) : Prop where
  going : ∀ c, c ∉ done → s.holdsGroupOrder g c = true → ∃ v, u.group g = some { e with members := v } ∧ ∀ c : Chan,
    v[c] = if c ∈ done ∧ s.holdsGroupOrder g c = true then some (.ended (s.cancelEnd c)) else e.members[c]
  gone : (∀ c, s.holdsGroupOrder g c = true → c ∈ done) → (∃ c, s.holdsGroupOrder g c = true) → u.group g = none ∧
    ⟨.groupDone, none, maskWord e.missed, bytesWord g.val e.serial, s.clock.ms⟩ ∈ es

theorem Cancelling.start (h : s.group g = some e) : Cancelling s g e [] s [] :=
  ⟨fun _ _ _ => ⟨e.members, h, fun _ => by simp⟩, fun hall ⟨c, hc⟩ => nomatch hall c hc⟩

theorem holdsGroupOrder_congr {v : State} (h : v.ch c = s.ch c) : v.holdsGroupOrder g c = s.holdsGroupOrder g c := by
  rw [State.holdsGroupOrder, State.holdsGroupOrder, h]

theorem cancelEnd_congr {v : State} (h : v.ch c = s.ch c) : v.cancelEnd c = s.cancelEnd c := by
  rw [State.cancelEnd, State.cancelEnd, h]

theorem group_cancelMember_ne {g' : Fin 4} (h : g ≠ g') : (cancelMember g u c).group g' = u.group g' := by
  cases hh : u.holdsGroupOrder g c with
  | false => rw [cancelMember_of_free hh]
  | true =>
    obtain ⟨o, ho, hm⟩ := holdsGroupOrder_iff.mp hh
    obtain ⟨v, -, hv, heq⟩ := endOrderWith_of_member (Does.refl c u) ho hm (u.cancelEnd c) .idle
    rw [cancelMember_of_holds hh, heq, group_reportGroup_ne hm h, group_congr hv]

theorem sweeps_cancel : Sweeps (fun _ => True) 1 (fun c k k' q fs => CancelledBy s g c k k' q fs) s (cancelMember g) c := by
  intro u hclock hch hqueue
  have hbase := Does.refl c u
  cases hh : s.holdsGroupOrder g c with
  | false =>
    rw [cancelMember_of_free ((holdsGroupOrder_congr hch).trans hh)]
    exact ⟨_, _, _, hbase, .inl rfl, by simp [plainCount], nofun, fun h => absurd (hh.symm.trans h) nofun, fun _ => ⟨hch, hqueue⟩⟩
  | true =>
    have hu := (holdsGroupOrder_congr hch).trans hh
    obtain ⟨o, ho, hm⟩ := holdsGroupOrder_iff.mp hu
    obtain ⟨h1, h2, -⟩ := cancelEnd_plain s c
    obtain ⟨gs, hgs, -, hend⟩ := hbase.endPlain ho h1 h2 .idle
    rw [endReports_of_no_run (.inl (by rw [hm]; nofun)), hclock] at hend
    rw [cancelMember_of_holds hu, cancelEnd_congr hch]
    refine ⟨_, _, _, hend, .inr rfl, ?_, fun _ _ => trivial, fun _ => ⟨by simp, rfl, rfl, rfl, by simp [hch]⟩,
      fun h => absurd (hh.symm.trans h) nofun⟩
    have hone : plainCount [endRecord c (u.ch c).hif.pos (s.cancelEnd c) s.clock.ms] ≤ 1 := plainCount_end
    rw [List.nil_append, List.append_nil, plainCount_append, plainCount_dones hgs]
    omega

theorem judged_member {done : List Chan} {members : Vector (Option MemberOutcome) 8} (hget : ∀ c : Chan,
      members[c] = if c ∈ done ∧ s.holdsGroupOrder g c = true then some (.ended (s.cancelEnd c)) else e.members[c])
    (hh : s.holdsGroupOrder g c = true) (d : Chan) :
    (({ e with members := members } : GroupEntry).judged c (.ended (s.cancelEnd c))).members[d] =
      if d ∈ done ++ [c] ∧ s.holdsGroupOrder g d = true then some (.ended (s.cancelEnd d)) else e.members[d] := by
  by_cases hd : d = c
  · subst hd
    simp [GroupEntry.judged, hh]
  · have hne : (c : Nat) ≠ (d : Nat) := fun e => hd (Fin.ext e.symm)
    have hset : (({ e with members := members } : GroupEntry).judged c (.ended (s.cancelEnd c))).members[d] = members[d] := by
      simp [GroupEntry.judged, Vector.getElem_set_ne, hne]
    rw [hset, hget]
    simp [hd]

/-- R140, R141: one more channel of the list; the last live member frees the entry. -/
theorem Cancelling.next (hlive : ∀ c : Chan, s.holdsGroupOrder g c = true ↔ e.members[c] = some .live)
    (hjudged : ∀ c : Chan, e.members[c] ≠ some .toJudge) {done : List Chan} {es : List Event}
    (hs : Swept (fun _ => True) 1 (fun _ _ _ _ _ => True) s done u es) (h : Cancelling s g e done u es) (hc : c ∉ done) :
    ∃ fs, Swept (fun _ => True) 1 (fun _ _ _ _ _ => True) s (done ++ [c]) (cancelMember g u c) (es ++ fs) ∧
      Cancelling s g e (done ++ [c]) (cancelMember g u c) (es ++ fs) := by
  obtain ⟨hch, hqueue⟩ := hs.stands c hc
  have hbase := Does.refl c u
  cases hh : s.holdsGroupOrder g c with
  | false =>
    rw [cancelMember_of_free ((holdsGroupOrder_congr hch).trans hh)]
    have hne {d : Chan} (hd : s.holdsGroupOrder g d = true) : d ≠ c := fun e => by rw [e, hh] at hd; cases hd
    refine ⟨[], hs.step hc hbase (.inl rfl) (by simp [plainCount]) nofun trivial, fun d hd hmem => ?_, fun hall hex => ?_⟩
    · obtain ⟨v, hv, hget⟩ := h.going d (fun hin => hd (List.mem_append_left _ hin)) hmem
      refine ⟨v, hv, fun d' => ?_⟩
      rw [hget]
      refine if_congr (and_congr_left fun hd' => ?_) rfl rfl
      simp [hne hd']
    · rw [List.append_nil]
      exact h.gone (fun d hd => (List.mem_append.mp (hall d hd)).resolve_right (by simpa using hne hd)) hex
  | true =>
    have hu := (holdsGroupOrder_congr hch).trans hh
    obtain ⟨o, ho, hm⟩ := holdsGroupOrder_iff.mp hu
    obtain ⟨members, hgroup, hget⟩ := h.going c hc hh
    obtain ⟨v, hv, hgroups, heq⟩ := endOrderWith_of_member hbase ho hm (s.cancelEnd c) .idle
    have hvgroup := (group_congr hgroups g).trans hgroup
    have hlivec : members[c] = some .live := by rw [hget, if_neg fun hand => hc hand.1, (hlive c).mp hh]
    obtain ⟨entry, hentry⟩ : ∃ entry, entry = ({ e with members := members } : GroupEntry).judged c (.ended (s.cancelEnd c)) :=
      ⟨_, rfl⟩
    have hwhole : entry = { e with members := entry.members } := by rw [hentry]; rfl
    have hmember (d : Chan) : entry.members[d] =
        if d ∈ done ++ [c] ∧ s.holdsGroupOrder g d = true then some (.ended (s.cancelEnd d)) else e.members[d] := by
      rw [hentry]
      exact judged_member hget hh d
    have hdoes : cancelMember g u c = finishGroup g (setGroup g (some entry) v) := by
      rw [hentry]
      rw [cancelMember_of_holds hu, cancelEnd_congr hch, heq, reportGroup_of_member hm hvgroup (cancelEnd_plain s c).2.2,
        memberEnd_cancelEnd, recordMember_of_live hvgroup hlivec]
    have hset := hv.setGroup_some hvgroup entry
    have hgroup' : (setGroup g (some entry) v).group g = some entry := group_setGroup_self ..
    rw [hdoes]
    generalize setGroup g (some entry) v = w at hset hgroup'
    by_cases hrest : ∃ d, d ∉ done ++ [c] ∧ s.holdsGroupOrder g d = true
    · obtain ⟨d, hd, hmem⟩ := hrest
      have hopen : entry.complete = false := Bool.eq_false_iff.mpr fun hc => (complete_iff.mp hc d).1 (by
        rw [hmember, if_neg fun hand => hd hand.1, (hlive d).mp hmem])
      rw [finishGroup_of_open hgroup' hopen]
      exact ⟨_, hs.step hc hset (.inr rfl) plainCount_end (fun _ _ => trivial) trivial,
        fun _ _ _ => ⟨entry.members, hgroup'.trans (congrArg some hwhole), hmember⟩, fun hall _ => absurd (hall d hmem) hd⟩
    · push Not at hrest
      have hcomplete : entry.complete = true := complete_iff.mpr fun d => by
        rw [hmember]
        split
        · simp
        · next hand =>
          refine ⟨fun hl => ?_, hjudged d⟩
          have hmem := (hlive d).mpr hl
          exact hrest d (fun hin => hand ⟨hin, hmem⟩) hmem
      have hmissed : entry.missed = e.missed := by
        rw [missed_eq, missed_eq]
        refine congrArg maskWhere (funext fun d => ?_)
        rw [hmember]
        split
        · next hand => simp [(hlive d).mp hand.2]
        · rfl
      have hserial : entry.serial = e.serial := by rw [hwhole]
      have hfree := hset.freeEntry hgroup' hcomplete
      rw [hmissed, hserial, hs.clock] at hfree
      refine ⟨_, hs.step hc hfree (.inr rfl) ?_ (fun _ _ => trivial) trivial, fun d hd hmem => absurd hmem (hrest d hd),
        fun _ _ => ⟨group_finishGroup_of_complete hgroup' hcomplete, by simp⟩⟩
      exact (List.countP_append ..).le.trans (by simp [List.countP_cons]; split <;> omega)

theorem Cancelling.fold (hlive : ∀ c : Chan, s.holdsGroupOrder g c = true ↔ e.members[c] = some .live)
    (hjudged : ∀ c : Chan, e.members[c] ≠ some .toJudge) {l done : List Chan} {es : List Event} (hn : (done ++ l).Nodup)
    (hs : Swept (fun _ => True) 1 (fun _ _ _ _ _ => True) s done u es) (h : Cancelling s g e done u es) :
    ∃ fs, Swept (fun _ => True) 1 (fun _ _ _ _ _ => True) s (done ++ l) (l.foldl (cancelMember g) u) fs ∧
      Cancelling s g e (done ++ l) (l.foldl (cancelMember g) u) fs := by
  induction l generalizing u done es with
  | nil => exact ⟨es, by simpa using hs, by simpa using h⟩
  | cons c l ih =>
    have hc : c ∉ done := fun hmem => (List.disjoint_of_nodup_append hn) hmem (List.mem_cons_self ..)
    obtain ⟨fs, hs', h'⟩ := h.next hlive hjudged hs hc
    have hassoc : done ++ [c] ++ l = done ++ c :: l := by simp
    obtain ⟨gs, hs'', h''⟩ := ih (by rwa [hassoc]) hs' h'
    rw [hassoc] at hs'' h''
    exact ⟨gs, hs'', h''⟩

theorem groupCancelRequest_eq {a : Word} (hr : s.ready = true) (hright : s.hasRight x .group = true)
    (hi : groupIndex (a.extractLsb' 8 8).toNat = some g) (hg : s.group g = some e) (hserial : e.serial = (a.extractLsb' 0 8).toNat)
    (howner : e.owner = x) :
    groupCancelRequest x 15 0 a s =
      ⟨.done, natWord (allChans.filter (s.holdsGroupOrder g)).length, allChans.foldl (cancelMember g) s⟩ := by
  have hserial' : ¬ e.serial ≠ (a.extractLsb' 0 8).toNat := not_not.mpr hserial
  have howner' : ¬ e.owner ≠ x := not_not.mpr howner
  simp only [groupCancelRequest, hi, hright, hr, hg, if_neg hserial', if_neg howner']
  rfl

end

/-- R142: the channels and the start queue after the request. -/
theorem exec_groupCancel {s : State} {g : Fin 4} (hwait : ∀ c, (s.ch c).moc.motion ≠ .waiting)
    (hqueue : ∀ c ∈ s.startQueue, s.holdsGroupOrder g c = true) :
    ∃ es, Swept (fun _ => True) 1 (fun c k k' q fs => CancelledBy s g c k k' q fs) s allChans
        (settle (allChans.foldl (cancelMember g) s)) es ∧
      (settle (allChans.foldl (cancelMember g) s)).startQueue = [] ∧
      (settle (allChans.foldl (cancelMember g) s)).groups = (allChans.foldl (cancelMember g) s).groups ∧
      (settle (allChans.foldl (cancelMember g) s)).links = (allChans.foldl (cancelMember g) s).links := by
  obtain ⟨es, hfold⟩ := Swept.of_fold allChans_nodup fun c (_ : c ∈ allChans) => sweeps_cancel (s := s) (g := g) (c := c)
  generalize allChans.foldl (cancelMember g) s = u at hfold ⊢
  have heach (c : Chan) := hfold.each c (mem_allChans c)
  have hq : u.startQueue = [] := startQueue_eq_nil fun c hc => by
    obtain ⟨fs, hP, -⟩ := heach c
    cases hh : s.holdsGroupOrder g c with
    | true => exact (hP.member hh).1 hc
    | false =>
      rw [hqueue c ((hP.free hh).2.mp hc)] at hh
      cases hh
  have hw (c : Chan) : (u.ch c).moc.motion ≠ .waiting := by
    obtain ⟨fs, hP, -⟩ := heach c
    cases hh : s.holdsGroupOrder g c with
    | true => rw [(hP.member hh).2.1]; decide
    | false => rw [(hP.free hh).1]; exact hwait c
  refine ⟨es, hfold.settle hq hw, ?_, ?_, ?_⟩ <;> rw [settle_of_quiet hq hw]
  exact hq

theorem group_foldl_cancelMember {g g' : Fin 4} (h : g ≠ g') (l : List Chan) (u : State) :
    (l.foldl (cancelMember g) u).group g' = u.group g' := by
  induction l generalizing u with
  | nil => rfl
  | cons c l ih => rw [List.foldl_cons, ih, group_cancelMember_ne h]

/-- Settles O50: the members one after another; the entry is followed beside them. -/
theorem groupCancelEndsTheMembers : Obligations.GroupCancelEndsTheMembers := by
  intro s x a g e hcalm hr hwait hqueue hright hi hg hserial howner
  obtain ⟨es, hset, hq, hgroups, hlinks⟩ := exec_groupCancel (s := received x s) (g := g) hwait hqueue
  have hlen := hset.length allChans_nodup
  have hserve : exec (.groupCancel x 15 0 a) s = _ :=
    serve_routed_of_body hr (groupCancelRequest_eq (s := received x s) hr hright hi hg hserial howner)
  have hothers (g' : Fin 4) (hne : g' ≠ g) := group_foldl_cancelMember (Ne.symm hne) allChans (received x s)
  have hdone (hlive : ∀ c : Chan, s.holdsGroupOrder g c = true ↔ e.members[c] = some .live)
      (hjudged : ∀ c : Chan, e.members[c] ≠ some .toJudge) := Cancelling.fold (s := received x s) (g := g) (e := e) hlive hjudged
    (l := allChans) (by simpa using allChans_nodup) (.start _) (.start hg)
  have hdata : natWord (allChans.filter ((received x s).holdsGroupOrder g)).length =
    natWord (allChans.filter (s.holdsGroupOrder g)).length := rfl
  generalize natWord (allChans.filter ((received x s).holdsGroupOrder g)).length = data at hserve hdata
  generalize allChans.foldl (cancelMember g) (received x s) = v at hset hq hgroups hlinks hserve hothers hdone
  generalize settle v = u at hset hq hgroups hlinks hserve
  refine ⟨_, hserve, ?_, hq, fun c hc => ?_, fun c hc => ?_, fun g' hne => ?_, fun hlive hjudged hex => ?_⟩
  · rw [← hdata]
    exact replies_setReply ..
  · obtain ⟨fs, hP, hsub⟩ := hset.each c (mem_allChans c)
    obtain ⟨-, h1, h2, h3, h4⟩ := hP.member hc
    refine ⟨h1, h2, h3, ?_⟩
    have hcode : natWord (orderEndCode (s.cancelEnd c)) = if (s.ch c).moc.motion = .queued then 15 else 4 := by
      unfold State.cancelEnd
      split <;> rfl
    rw [← hcode]
    exact hset.holds_replied (d := natWord (orderEndCode (s.cancelEnd c))) (hsub _ h4) (by omega) (by decide) .done data
  · obtain ⟨fs, hP, -⟩ := hset.each c (mem_allChans c)
    exact (hP.free hc).1
  · exact (group_congr hgroups g').trans (hothers g' hne)
  · obtain ⟨fs, hs, hcancel⟩ := hdone hlive hjudged
    have hlen' := hs.length (by simpa using allChans_nodup)
    obtain ⟨hnone, hin⟩ := hcancel.gone (fun c _ => by simp [mem_allChans]) hex
    refine ⟨(group_congr hgroups g).trans hnone, fun y hy => holds_setReply ?_⟩
    rw [← missed_eq]
    have hheld := hs.posts.holds_none hs.clock hin (by omega) (y := y) (by rw [mask_received]; exact hy) (by decide)
    unfold Holds at hheld ⊢
    rw [link_congr hlinks, hset.clock]
    rwa [hs.clock] at hheld

end Sys2Proof.Machine
end

section
/-! Drives that turn on: at a brake expiry and at a grant (R81, R84, R93, R109 to R111). Settles O34. -/

namespace Sys2Proof.Machine

/-! ## What is left to be done, when no slot can be granted -/

section
variable {s u : State} {c : Chan} {k : Channel} {q : List Chan} {es : List Event}

/-- R109: a grant test that fails its first or second condition. -/
theorem grantTest_of_gated (h : s.spacingElapsed = false ∨ s.glob.ns ≤ s.slotCount) : grantTest s = s := by
  refine if_neg fun ⟨hslots, hspacing⟩ => ?_
  rcases h with h | h
  · rw [h] at hspacing
    cases hspacing
  · omega

/-- With nobody waiting and no slot to grant, what an action left to be done is nothing. -/
theorem settle_of_gated (h : s.spacingElapsed = false ∨ s.glob.ns ≤ s.slotCount) (hw : ∀ c, (s.ch c).moc.motion ≠ .waiting) :
    settle s = { s with agenda := [] } := by
  refine settleN_of_inert (fun t _ a => ?_) 256
  cases t with
  | grantTest => exact grantTest_of_gated (s := { s with agenda := a }) h
  | orderEnded c waiters own ok =>
    exact List.foldl_fixed' (fun p => leaderAfterEnd_of_not_waiting (s := { s with agenda := a }) (hw p)) waiters
  | moved c waiters =>
    exact List.foldl_fixed' (fun p => leaderAfterMove_of_not_waiting (s := { s with agenda := a }) (hw p)) waiters
  | followerTest c => exact followerAfter_of_not_waiting (s := { s with agenda := a }) (hw c)

namespace Does

theorem spacingElapsed (h : Does c s u k q es) : u.spacingElapsed = s.spacingElapsed := by
  unfold State.spacingElapsed
  rw [h.spacing, h.clock, h.glob]

theorem slotCount (h : Does c s u k q es) (hk : k.moc.slot = (s.ch c).moc.slot) : u.slotCount = s.slotCount := by
  have hsame : u.holdsSlot = s.holdsSlot := funext fun d => by
    by_cases hd : d = c
    · subst hd
      rw [State.holdsSlot, State.holdsSlot, h.self, hk]
    · rw [State.holdsSlot, State.holdsSlot, h.other d hd]
  rw [State.slotCount, State.slotCount, hsame]

theorem not_waiting (h : Does c s u k q es) (hk : k.moc.motion ≠ .waiting) (hw : ∀ d, d ≠ c → (s.ch d).moc.motion ≠ .waiting)
    (d : Chan) : (u.ch d).moc.motion ≠ .waiting := by
  by_cases e : d = c
  · subst e
    rwa [h.self]
  · rw [h.other d e]
    exact hw d e

/-- With the spacing timer running and nobody waiting, what an action left to be done is nothing. -/
theorem settle_spaced (h : Does c s u k q es) (hs : s.spacingElapsed = false) (hk : k.moc.motion ≠ .waiting)
    (hw : ∀ d, d ≠ c → (s.ch d).moc.motion ≠ .waiting) : Does c s (Machine.settle u) k q es := by
  rw [settle_of_gated (.inl (h.spacingElapsed.trans hs)) (h.not_waiting hk hw)]
  exact h.agenda []

/-- With every slot taken, nobody waiting and the channel's slot as it was, what an action left to be done is nothing. -/
theorem settle_full (h : Does c s u k q es) (hn : s.glob.ns ≤ s.slotCount) (hslot : k.moc.slot = (s.ch c).moc.slot)
    (hk : k.moc.motion ≠ .waiting) (hw : ∀ d, d ≠ c → (s.ch d).moc.motion ≠ .waiting) : Does c s (Machine.settle u) k q es := by
  rw [settle_of_gated (.inr (by rw [h.glob, h.slotCount hslot]; exact hn)) (h.not_waiting hk hw)]
  exact h.agenda []

end Does

/-! ## Drives (R81) -/

/-- R81, R14, R29, R51: the channel with its drive on. -/
def Channel.driving (now : Nat) (m : Motion) (d : Dir) (k : Channel) : Channel :=
  { k with
    hif := k.hif.clearRun
    ctx := k.ctx.startRun d
    moc := { k.moc with motion := m, stall := some (now + 150000), steps := 0 } }

/-- From `s` to `t` the drive of `c` turned on and nothing else was done: the channel is `k`, the start queue `q`. -/
structure Drives (c : Chan) (s t : State) (k : Channel) (q : List Chan) : Prop where
  self : t.ch c = k
  blanked : NeighboursBlanked c s t
  frame : t = { s with chans := t.chans, lde := t.lde, spacing := .armed s.clock.now false, startQueue := q, agenda := t.agenda }

/-- R81: a drive-on after steps of channel `c` that left its links and records alone. -/
theorem drives_driveOn {v : State} (hv : v = { s with chans := v.chans, startQueue := v.startQueue, agenda := v.agenda })
    (ho : OnlyChannel c s v) (m : Motion) (d : Dir) :
    Drives c s (driveOn c m d v) ((v.ch c).driving s.clock.now m d) v.startQueue ∧ (driveOn c m d v).agenda = v.agenda := by
  obtain ⟨hframe, hself, hblank⟩ := driveOn_spec c m d v
  generalize driveOn c m d v = t at hframe hself hblank
  have hclock : v.clock = s.clock := by rw [hv]
  have hagenda : t.agenda = v.agenda := by rw [hframe]
  refine ⟨⟨?_, fun e he => ?_, ?_⟩, hagenda⟩
  · rw [hself, hclock]
    rfl
  · rw [hblank e he, ho e he]
  · rw [hagenda]
    rw [hclock] at hframe
    generalize t.chans = k, t.lde = l at hframe ⊢
    generalize v.chans = k', v.startQueue = q', v.agenda = a at hv hframe ⊢
    rw [hframe, hv]

theorem Drives.of_step {v t : State} (h : Drives c v t k q) (ho : OnlyChannel c s v)
    (hv : v = { s with chans := v.chans, startQueue := v.startQueue, agenda := v.agenda }) : Drives c s t k q := by
  refine ⟨h.self, fun d hd => by rw [h.blanked d hd, ho d hd], ?_⟩
  have hframe := h.frame
  generalize t.chans = k', t.lde = l, t.agenda = a at hframe ⊢
  generalize v.chans = k'', v.startQueue = q', v.agenda = a' at hv
  rw [hframe, hv]

/-- The motion of a channel whose drive of that direction is on within an order. -/
def Dir.motion : Dir → Motion
  | .closing => .closing
  | .opening => .opening

variable {o : Order}

/-- R84, R110, R146, R149: a channel in no companion link, short of its target. -/
theorem startDrive_of_free (ho : (s.ch c).moc.order = some o) (ht : atTarget o.dir o.target (s.ch c).hif.pos = false)
    (hc : o.dir = .opening → (s.ch c).cal.companion = none) (hl : s.leadersOf c = []) :
    startDrive c s = driveOn c o.dir.motion o.dir s := by
  simp only [startDrive, ho, ht, Bool.false_eq_true, if_false, driveGated]
  cases hd : o.dir with
  | closing => simp [State.clamped, hl, Dir.motion]
  | opening => simp [State.gateDue, hc hd, throughGate, Dir.motion]

/-- R79, R84: a channel at its target, outside learning. -/
theorem startDrive_of_target (ho : (s.ch c).moc.order = some o) (ht : atTarget o.dir o.target (s.ch c).hif.pos = true)
    (hp : o.phase ≠ .refOpening) : startDrive c s = endTarget c s := by
  simp only [startDrive, ho, ht, if_true, if_neg hp]

/-- R109, R110: the grant to the first of the queue whose brake timer has expired. -/
theorem grantTest_of_head {ahead behind : List Chan} (hn : s.slotCount < s.glob.ns) (hs : s.spacingElapsed = true)
    (hq : s.startQueue = ahead ++ c :: behind) (ha : ∀ d ∈ ahead, (s.ch d).moc.brakeRunning = true)
    (hb : (s.ch c).moc.brakeRunning = false) :
    grantTest s = startDrive c (updMoc c (fun k => { k with slot := true }) (leaveQueue c s)) := by
  have hfind : s.eligible = some c := by
    have hnone : ahead.find? (fun c => !(s.ch c).moc.brakeRunning) = none := List.find?_eq_none.mpr fun d hd => by simp [ha d hd]
    rw [State.eligible, hq, List.find?_append, hnone, List.find?_cons_of_pos (by simp [hb])]
    rfl
  simp only [grantTest, hn, hs, and_self, if_true, hfind]

theorem ne_of_mem_ahead {ahead behind : List Chan} {d : Chan} (hq : s.startQueue = ahead ++ c :: behind) (hn : s.startQueue.Nodup)
    (hd : d ∈ ahead) : d ≠ c := by
  rw [hq] at hn
  exact (List.nodup_append.mp hn).2.2 d hd c (List.mem_cons_self ..)

theorem filter_of_split {ahead behind : List Chan} (hq : s.startQueue = ahead ++ c :: behind) (hn : s.startQueue.Nodup) :
    s.startQueue.filter (· ≠ c) = ahead ++ behind := by
  obtain ⟨-, h2, -⟩ := List.nodup_append.mp (hq ▸ hn)
  have hahead : ahead.filter (· ≠ c) = ahead := List.filter_eq_self.mpr fun d hd => by
    simpa using ne_of_mem_ahead hq hn hd
  have hbehind : behind.filter (· ≠ c) = behind := List.filter_eq_self.mpr fun d hd => by
    have hne : d ≠ c := fun e => (List.nodup_cons.mp h2).1 (e ▸ hd)
    simpa using hne
  rw [hq, List.filter_append, List.filter_cons_of_neg (by simp), hahead, hbehind]

/-- The state as the grant leaves it before the drive. -/
def State.granted (s : State) (c : Chan) : State := updMoc c (fun k => { k with slot := true }) (leaveQueue c s)

/-- R109, R110: a grant to a channel in no link and short of its target turns its drive on. -/
theorem drives_grantTest {ahead behind : List Chan} (hn : s.slotCount < s.glob.ns) (hs : s.spacingElapsed = true)
    (hq : s.startQueue = ahead ++ c :: behind) (hnodup : s.startQueue.Nodup) (ha : ∀ d ∈ ahead, (s.ch d).moc.brakeRunning = true)
    (hb : (s.ch c).moc.brakeRunning = false) (ho : (s.ch c).moc.order = some o)
    (ht : atTarget o.dir o.target (s.ch c).hif.pos = false) (hc : o.dir = .opening → (s.ch c).cal.companion = none)
    (hl : s.leadersOf c = []) :
    Drives c s (grantTest s) (({ s.ch c with moc := { (s.ch c).moc with slot := true } } : Channel).driving s.clock.now
      o.dir.motion o.dir) (ahead ++ behind) ∧ (grantTest s).agenda = s.agenda := by
  have hself : (s.granted c).ch c = { s.ch c with moc := { (s.ch c).moc with slot := true } } := ch_updMoc_self ..
  have honly : OnlyChannel c s (s.granted c) := onlyChannel_updChan c _ (leaveQueue c s)
  have hleaders : (s.granted c).leadersOf c = [] := by
    refine (leadersOf_congr (s := s) (fun d => ?_) c).trans hl
    by_cases hd : d = c
    · subst hd
      rw [hself]
    · rw [honly d hd]
  have hstart : grantTest s = driveOn c o.dir.motion o.dir (s.granted c) := by
    rw [grantTest_of_head hn hs hq ha hb]
    exact startDrive_of_free (s := s.granted c) (by rw [hself]; exact ho) (by rw [hself]; exact ht) (by rw [hself]; exact hc) hleaders
  have hqueue : (s.granted c).startQueue = ahead ++ behind := filter_of_split hq hnodup
  have hdrive := drives_driveOn (s := s) (v := s.granted c) rfl honly o.dir.motion o.dir
  rw [hself, hqueue] at hdrive
  rw [hstart]
  exact hdrive

end

/-! ## The brake expiry (R84, R93, R109) -/

section
variable {s : State} {c : Chan} {o : Order}

/-- R83: the state with the brake timer of `c` stopped. -/
def State.unbraked (s : State) (c : Chan) : State := updMoc c (fun k => { k with brakeRunning := false }) s

/-- R83: the channel so. -/
def Channel.unbraked (k : Channel) : Channel := { k with moc := { k.moc with brakeRunning := false } }

theorem does_unbraked : Does c s (s.unbraked c) (s.ch c).unbraked s.startQueue [] := (Does.refl c s).updMoc _

theorem ch_unbraked : (s.unbraked c).ch c = (s.ch c).unbraked := does_unbraked.self

theorem exec_brakeExpiry (hb : (s.ch c).moc.brakeRunning = true) (hd : (s.ch c).moc.brakeExpiry ≤ s.clock.now) :
    exec (.brakeExpiry c) s = .next (settle (brakeExpired c s)) := by
  have hdue : ((s.ch c).moc.brakeRunning && due (some (s.ch c).moc.brakeExpiry) s.clock.now) = true := by simp [hb, due, hd]
  show finish (if (s.ch c).moc.brakeRunning && due (some (s.ch c).moc.brakeExpiry) s.clock.now then brakeExpired c s else s) = _
  rw [if_pos hdue]
  rfl

theorem brakeExpired_of_pinch {target : Int} (hm : (s.ch c).moc.motion = .brakingPinch) (ht : (s.ch c).moc.revTarget = some target) :
    brakeExpired c s = if target ≤ (s.ch c).hif.pos then reversalAtTarget c (s.unbraked c)
      else driveOn c .reversing .opening (s.unbraked c) := by
  have hself := ch_unbraked (s := s) (c := c)
  have hm' : ((s.unbraked c).ch c).moc.motion = .brakingPinch := by rw [hself]; exact hm
  have ht' : ((s.unbraked c).ch c).moc.revTarget = some target := by rw [hself]; exact ht
  have hp' : ((s.unbraked c).ch c).hif.pos = (s.ch c).hif.pos := by rw [hself]; rfl
  unfold State.unbraked at *
  simp only [brakeExpired, hm', startReversal, ht', hp']

theorem brakeExpired_of_order (hm : (s.ch c).moc.motion = .brakingOrder) : brakeExpired c s = startDrive c (s.unbraked c) := by
  have hm' : ((s.unbraked c).ch c).moc.motion = .brakingOrder := by rw [ch_unbraked]; exact hm
  unfold State.unbraked at *
  simp only [brakeExpired, hm']

theorem brakeExpired_of_queued (hm : (s.ch c).moc.motion = .queued) : brakeExpired c s = push .grantTest (s.unbraked c) := by
  have hm' : ((s.unbraked c).ch c).moc.motion = .queued := by rw [ch_unbraked]; exact hm
  unfold State.unbraked at *
  simp only [brakeExpired, hm']

/-- The first thing left to be done, and the rest after it. -/
theorem settle_cons {u : State} {k : Task} {ks : List Task} (ha : u.agenda = k :: ks) :
    settle u = settleN 255 (runTask k { u with agenda := ks }) := by
  show settleN (255 + 1) u = _
  rw [settleN, ha]

/-- A single grant test left to be done. -/
theorem settle_push_grantTest (ha : s.agenda = []) (h : (grantTest s).agenda = []) :
    settle (push .grantTest s) = grantTest s := by
  have hpush : (push .grantTest s).agenda = [.grantTest] := by
    show s.agenda ++ [.grantTest] = _
    rw [ha]
    rfl
  have hback : ({ push .grantTest s with agenda := [] } : State) = s := by
    show ({ s with agenda := [] } : State) = s
    rw [← ha]
  rw [settle_cons hpush, hback]
  exact settleN_of_nil h 255

theorem settle_push_grantTest_of_gated (ha : s.agenda = []) (h : s.spacingElapsed = false ∨ s.glob.ns ≤ s.slotCount) :
    settle (push .grantTest s) = s := by
  have hgate := grantTest_of_gated h
  rw [settle_push_grantTest ha (by rw [hgate, ha]), hgate]

/-- R84, R110: what a drive-on at a brake expiry or a grant is to leave. -/
theorem Drives.facts {t : State} {k : Channel} {q : List Chan} {m : Motion} {d : Dir}
    (h : Drives c s t (k.driving s.clock.now m d) q) (hb : k.moc.brakeRunning = false) (hh : k.hif = (s.ch c).hif) :
    (t.ch c).moc.motion = m ∧ (t.ch c).moc.brakeRunning = false ∧ (t.ch c).moc.stall = some (s.clock.now + 150000) ∧
    (t.ch c).ctx.runDir = some d ∧ (t.ch c).hif = { (s.ch c).hif with
      fifo := [], gap := false, quadErrors := 0, contrary := 0, drift := 0 } ∧
    t.spacing = .armed s.clock.now false ∧ NeighboursBlanked c s t ∧ t.links = s.links := by
  have hframe := h.frame
  refine ⟨by rw [h.self]; rfl, by rw [h.self]; exact hb, by rw [h.self]; rfl, ?_, ?_, by rw [hframe], h.blanked, by rw [hframe]⟩
  · rw [h.self]
    cases d <;> rfl
  · rw [h.self, ← hh]
    rfl

theorem leadersOf_unbraked : (s.unbraked c).leadersOf c = s.leadersOf c :=
  leadersOf_updChan (f := fun k => { k with moc := { k.moc with brakeRunning := false } }) rfl c

/-- R94, R100: what an end at a brake expiry leaves of the channel, which had no drive on. -/
theorem Does.rested {t : State} {a : Auth} {es : List Event}
    (h : Does c s t { (s.ch c).unbraked.stopped s.clock.now .idle with auth := a } [] es) (hm : (s.ch c).moc.motion.drive = none) :
    (t.ch c).moc.motion = .idle ∧ (t.ch c).moc.order = none ∧ (t.ch c).moc.revTarget = none ∧ (t.ch c).moc.slot = false ∧
    (t.ch c).moc.brakeRunning = false ∧ (t.ch c).hif = (s.ch c).hif ∧ (t.ch c).moc.latched = (s.ch c).moc.latched := by
  have hoff : (s.ch c).unbraked.off s.clock.now = (s.ch c).unbraked := Channel.off_of_no_drive hm
  rw [h.self]
  refine ⟨rfl, rfl, rfl, rfl, ?_, ?_, ?_⟩
  · rw [stopped_brakeRunning, hoff]
    rfl
  · rw [stopped_hif, hoff]
    rfl
  · rw [stopped_latched]
    rfl

/-- R93: a reversal that is at its target when the brake timer expires. -/
theorem exec_brakeExpiry_at_target {target : Int} (hb : (s.ch c).moc.brakeRunning = true)
    (hdue : (s.ch c).moc.brakeExpiry ≤ s.clock.now) (hm : (s.ch c).moc.motion = .brakingPinch)
    (ht : (s.ch c).moc.revTarget = some target) (hpos : target ≤ (s.ch c).hif.pos) (hcalm : s.calm) :
    ∃ t ds, exec (.brakeExpiry c) s = .next t ∧ Does.Dones ds ∧ Does c s t { (s.ch c).unbraked.stopped s.clock.now .idle with
      auth := { (s.ch c).auth with window := some (s.clock.now + 10000000) } } []
      ([revRecord c (s.ch c).hif.pos .target s.clock.ms] ++ ds) := by
  obtain ⟨ds, hds, hrev⟩ := (does_unbraked (s := s) (c := c)).reversalAtTarget
  rw [hcalm.2.1] at hrev
  have hexec := exec_brakeExpiry hb hdue
  rw [brakeExpired_of_pinch hm ht, if_pos hpos] at hexec
  exact ⟨_, ds, hexec, hds, hrev.settle (by simp) fun d _ => hcalm.2.2 d⟩

/-- R84, R101: an order that is at its target when the brake timer expires. -/
theorem exec_brakeExpiry_order_at_target (hb : (s.ch c).moc.brakeRunning = true) (hdue : (s.ch c).moc.brakeExpiry ≤ s.clock.now)
    (hm : (s.ch c).moc.motion = .brakingOrder) (ho : (s.ch c).moc.order = some o)
    (ht : atTarget o.dir o.target (s.ch c).hif.pos = true) (hcalm : s.calm) (hmover : o.mover = .client)
    (hphase : o.phase = .notLearning) :
    ∃ t, exec (.brakeExpiry c) s = .next t ∧ Does c s t ((s.ch c).unbraked.stopped s.clock.now .idle) []
      (softStopRecords c (s.ch c).unbraked o s.clock.ms ++ [endRecord c (s.ch c).hif.pos .target s.clock.ms]) := by
  have hself := ch_unbraked (s := s) (c := c)
  have hend := (does_unbraked (s := s) (c := c)).endTarget_of_client (o := o) ho hmover
  rw [hcalm.2.1] at hend
  have hexec := exec_brakeExpiry hb hdue
  rw [brakeExpired_of_order hm, startDrive_of_target (s := s.unbraked c) (o := o) (by rw [hself]; exact ho)
    (by rw [hself]; exact ht) (by rw [hphase]; decide)] at hexec
  exact ⟨_, hexec, hend.settle (by simp) fun d _ => hcalm.2.2 d⟩

theorem spacingElapsed_unbraked : (s.unbraked c).spacingElapsed = s.spacingElapsed := rfl

theorem slotCount_unbraked : (s.unbraked c).slotCount = s.slotCount := does_unbraked.slotCount rfl

/-- Settles O34: the expiry in each of the three motions that it meets. -/
theorem brakeExpiryStartsTheReversal : Obligations.BrakeExpiryStartsTheReversal := by
  intro s c ha hb hdue drives ended
  have hexec := exec_brakeExpiry hb hdue
  have hself := ch_unbraked (s := s) (c := c)
  have honly : OnlyChannel c s (s.unbraked c) := onlyChannel_updChan c _ s
  have hagenda : (s.unbraked c).agenda = [] := ha
  refine ⟨fun target hm ht => ⟨fun hpos => ?_, fun hpos hcalm => ?_⟩, fun o ho hc hl => ?_⟩
  · obtain ⟨hd, hnone⟩ := drives_driveOn (s := s) (v := s.unbraked c) rfl honly .reversing .opening
    rw [hself] at hd
    rw [brakeExpired_of_pinch hm ht, if_neg (by omega), settle_of_nil (hnone.trans hagenda)] at hexec
    refine ⟨_, hexec, hd.facts rfl rfl, ?_, ?_, by rw [hd.frame]; rfl⟩ <;> rw [hd.self]
    · exact ht
    · rfl
  · obtain ⟨t, ds, ht', hds, h⟩ := exec_brakeExpiry_at_target hb hdue hm ht hpos hcalm
    have hlen := h.length_dones' hds
    obtain ⟨h1, h2, h3, h4, h5, h6, h7⟩ := h.rested (by rw [hm]; rfl)
    exact ⟨t, ht', ⟨h.other, h.device, h1, h2, h3, h4, h5, h6, h7, h.holds_rev (e := .target) (by simp) (by simp; omega)⟩,
      by rw [h.self]⟩
  · refine ⟨fun hm => ⟨fun hreached => ?_, fun hreached hcalm hmover hphase => ?_⟩,
      fun hm => ⟨fun hgate => ?_, fun ahead behind hq hnodup hahead hspacing hslots hreached => ?_⟩⟩
    · obtain ⟨hd, hnone⟩ := drives_driveOn (s := s) (v := s.unbraked c) rfl honly o.dir.motion o.dir
      rw [hself] at hd
      rw [brakeExpired_of_order hm, startDrive_of_free (s := s.unbraked c) (o := o) (by rw [hself]; exact ho)
        (by rw [hself]; exact hreached) (fun _ => by rw [hself]; exact hc) (leadersOf_unbraked.trans hl),
        settle_of_nil (hnone.trans hagenda)] at hexec
      refine ⟨_, hexec, hd.facts rfl rfl, ?_, ?_, by rw [hd.frame]; rfl⟩ <;> rw [hd.self]
      · exact ho
      · rfl
    · obtain ⟨t, ht', h⟩ := exec_brakeExpiry_order_at_target hb hdue hm ho hreached hcalm hmover hphase
      have hlen := length_softStopRecords (c := c) (k := (s.ch c).unbraked) (o := o) (ms := s.clock.ms)
      have hstop : (s.ch c).unbraked.stopped s.clock.now .idle =
          { (s.ch c).unbraked.stopped s.clock.now .idle with auth := ((s.ch c).unbraked.stopped s.clock.now .idle).auth } := rfl
      rw [hstop] at h
      obtain ⟨h1, h2, h3, h4, h5, h6, h7⟩ := h.rested (by rw [hm]; rfl)
      exact ⟨t, ht', h.other, h.device, h1, h2, h3, h4, h5, h6, h7, h.holds_end (e := .target) (by simp) (by simp; omega)⟩
    · rw [brakeExpired_of_queued hm, settle_push_grantTest_of_gated (s := s.unbraked c) hagenda (hgate.imp_right fun h => by rw [slotCount_unbraked]; exact h)] at hexec
      exact hexec
    · have hbraked (d : Chan) (hd : d ∈ ahead) : ((s.unbraked c).ch d).moc.brakeRunning = true := by
        rw [honly d (ne_of_mem_ahead hq hnodup hd)]
        exact hahead d hd
      obtain ⟨hd, hnone⟩ := drives_grantTest (s := s.unbraked c) (o := o) (by rw [slotCount_unbraked]; exact hslots) hspacing hq
        hnodup hbraked (by rw [hself]; rfl) (by rw [hself]; exact ho) (by rw [hself]; exact hreached)
        (fun _ => by rw [hself]; exact hc) (leadersOf_unbraked.trans hl)
      rw [brakeExpired_of_queued hm, settle_push_grantTest hagenda (hnone.trans hagenda)] at hexec
      rw [hself] at hd
      have hd' := hd.of_step honly rfl
      refine ⟨_, hexec, hd'.facts rfl rfl, ?_, ?_, by rw [hd.frame]⟩ <;> rw [hd.self]
      · exact ho
      · rfl

end

end Sys2Proof.Machine
end

section
/-! Orders handed to MOC: what becomes of the channel, and the queue that it joins (R78, R95, R105 to R107, R120, R121).
Settles O36, O40, O41. -/

namespace Sys2Proof.Machine

/-! ## Handing over (R120, R130, R131) -/

/-- R130: the channel at the admission of an order of direction `d`. -/
def Channel.admitting (d : Dir) (k : Channel) : Channel := if d = .opening then k.unwindowed else k

/-- R130, R131: a channel that differs in AUT's part alone. -/
structure SameButAuth (k k' : Channel) : Prop where
  moc : k'.moc = k.moc
  hif : k'.hif = k.hif
  ctx : k'.ctx = k.ctx
  cal : k'.cal = k.cal
  hold : k'.hold = k.hold
  level : k'.level = k.level
  learning : k'.learning = k.learning

theorem SameButAuth.refl (k : Channel) : SameButAuth k k := ⟨rfl, rfl, rfl, rfl, rfl, rfl, rfl⟩

theorem SameButAuth.trans {k l m : Channel} (h : SameButAuth k l) (h' : SameButAuth l m) : SameButAuth k m :=
  ⟨h'.moc.trans h.moc, h'.hif.trans h.hif, h'.ctx.trans h.ctx, h'.cal.trans h.cal, h'.hold.trans h.hold, h'.level.trans h.level,
    h'.learning.trans h.learning⟩

theorem sameButAuth_admitting (d : Dir) (k : Channel) : SameButAuth k (k.admitting d) := by
  unfold Channel.admitting
  split
  · exact ⟨rfl, rfl, rfl, rfl, rfl, rfl, rfl⟩
  · exact .refl k

section
variable {s u : State} {c : Chan} {k : Channel} {q : List Chan} {es : List Event} {o n held : Order}

/-- The state at the admission of an order of direction `d`. -/
def State.admitting (u : State) (c : Chan) (d : Dir) : State := if d = .opening then clearOverride c u else u

theorem handOver_eq : handOver c o u = install c o (u.admitting c o.dir) := by
  unfold handOver State.admitting
  split <;> rfl

theorem agenda_admitting (d : Dir) : (u.admitting c d).agenda = u.agenda := by
  unfold State.admitting
  split <;> rfl

namespace Does

theorem admitting (h : Does c s u k q es) (d : Dir) : Does c s (u.admitting c d) (k.admitting d) q es := by
  unfold State.admitting Channel.admitting
  split
  · exact h.clearOverride
  · exact h

theorem noteOverride (h : Does c s u k q es) (n : Nat) : ∃ k', Does c s (noteOverride c n u) k' q es ∧ SameButAuth k k' := by
  unfold Machine.noteOverride
  split
  · exact ⟨k, h, .refl k⟩
  · exact ⟨_, h.updAuth _, rfl, rfl, rfl, rfl, rfl, rfl, rfl⟩

end Does

theorem normalized_congr {v : State} (h : SameButAuth (u.ch c) (v.ch c)) : v.normalized c o = u.normalized c o := by
  rw [State.normalized, State.normalized, h.cal, h.level]

theorem startQueue_joinStartQueue_calm (hq : ∀ d ∈ u.startQueue, d = c) : (joinStartQueue c u).startQueue = [c] := by
  have hempty : u.startQueue.filter (· ≠ c) = [] := List.filter_eq_nil_iff.mpr fun d hd => by simpa using hq d hd
  show (if u.opens c then (u.startQueue.filter (· ≠ c)).takeWhile u.opens ++ [c] ++
    (u.startQueue.filter (· ≠ c)).dropWhile u.opens else u.startQueue.filter (· ≠ c) ++ [c]) = [c]
  rw [hempty]
  split <;> rfl

/-! ## Installations, by motion (R78, R95, R150) -/

theorem install_of_plain (hw : (u.ch c).moc.motion ≠ .waiting) (hr : (u.ch c).moc.motion ≠ .reversing) :
    install c o u = installBasic c (u.normalized c o) u := by
  simp only [install]

/-- R146: without a companion there is no gate test. -/
theorem gateDue_of_no_companion (h : (u.ch c).cal.companion = none) : u.gateDue c o = none := by
  simp [State.gateDue, h]

theorem install_of_reversing (hm : (u.ch c).moc.motion = .reversing)
    (hc : ((installBasic c (u.normalized c o) u).ch c).cal.companion = none) :
    install c o u = installBasic c (u.normalized c o) u := by
  simp only [install, hm, gateDue_of_no_companion hc, throughGate, id_eq]

/-- R150: a channel in no companion link joins the queue from WAITING. -/
theorem install_of_waiting (hm : (u.ch c).moc.motion = .waiting)
    (hn : ((installBasic c (u.normalized c o) u).ch c).moc.order = some n)
    (hc : ((installBasic c (u.normalized c o) u).ch c).cal.companion = none)
    (hl : (installBasic c (u.normalized c o) u).leadersOf c = []) :
    install c o u = joinStartQueue c (installBasic c (u.normalized c o) u) := by
  simp only [install, hm, installWaiting, hn]
  cases n.dir with
  | opening => simp only [gateDue_of_no_companion hc, throughGate]
  | closing => simp [State.clamped, hl]

namespace Does

/-- R78: the replaced order's end, and what GRP and NRM make of it. -/
def Replacing (c : Chan) (s v : State) (k k' : Channel) (q : List Chan) (es : List Event) (held : Order) : Prop :=
  ∃ gs, Dones gs ∧ ((∀ g, held.mover ≠ .group g) → gs = []) ∧
    Does c s v k' q (es ++ [endRecord c k.hif.pos .replaced s.clock.ms] ++ gs ++
      endReports c k.hif.pos held k.learning .replaced s.clock.ms)

theorem Replacing.map {v w : State} {k' l : Channel} {q' : List Chan} (h : Replacing c s v k k' q es held)
    (hf : ∀ {fs}, Does c s v k' q fs → Does c s w l q' fs) : Replacing c s w k l q' es held := by
  obtain ⟨gs, hgs, hgroup, hv⟩ := h
  exact ⟨gs, hgs, hgroup, hf hv⟩

theorem replacingBy (h : Does c s u k q es) (ho : k.moc.order = some held) (n : Order) :
    Replacing c s (Machine.replaceOrder c n u) k (k.replaced held n) q es held := h.replaceOrder ho n

/-- R78: in the queue, braking or driving, for the same direction, the new order takes the place of the old. -/
theorem install_kept (h : Does c s u k q es) (ho : k.moc.order = some held)
    (hm : k.moc.motion = .queued ∧ u.opens c = decide (o.dir = .opening) ∨ k.moc.motion = .brakingOrder ∨
      k.moc.motion = .closing ∧ o.dir = .closing ∨ k.moc.motion = .opening ∧ o.dir = .opening) :
    Replacing c s (install c o u) k (k.replaced held (u.normalized c o)) q es held := by
  have hself := h.self
  rw [install_of_plain (by rw [hself]; rcases hm with ⟨e, _⟩ | e | ⟨e, _⟩ | ⟨e, _⟩ <;> rw [e] <;> decide)
    (by rw [hself]; rcases hm with ⟨e, _⟩ | e | ⟨e, _⟩ | ⟨e, _⟩ <;> rw [e] <;> decide)]
  have heq : installBasic c (u.normalized c o) u = Machine.noteMoved c (Machine.replaceOrder c (u.normalized c o) u) := by
    rcases hm with ⟨e, hd⟩ | e | hd
    · exact installBasic_of_queued_same (by rw [hself, e]) hd
    · exact installBasic_of_braking (by rw [hself, e])
    · exact installBasic_of_drive_same (by rw [hself]; exact hd)
  rw [heq]
  exact (h.replacingBy ho _).map fun hv => hv.noteMoved c

/-- R107: in the queue, for the other direction. -/
theorem install_requeued (h : Does c s u k q es) (ho : k.moc.order = some held) (hm : k.moc.motion = .queued)
    (hd : u.opens c ≠ decide (o.dir = .opening)) :
    Replacing c s (install c o u) k (k.replaced held (u.normalized c o)).queued
      (Machine.joinStartQueue c (Machine.replaceOrder c (u.normalized c o) u)).startQueue es held := by
  have hself := h.self
  rw [install_of_plain (by rw [hself, hm]; decide) (by rw [hself, hm]; decide),
    installBasic_of_queued_other (o := u.normalized c o) (by rw [hself, hm]) hd]
  exact (h.replacingBy ho _).map fun hv => hv.queueUp.noteMoved c

/-- R78: with the drive of the other direction on. -/
theorem install_braked (h : Does c s u k q es) (ho : k.moc.order = some held)
    (hm : k.moc.motion = .closing ∧ o.dir = .opening ∨ k.moc.motion = .opening ∧ o.dir = .closing) :
    Replacing c s (install c o u) k ((k.replaced held (u.normalized c o)).braking s.clock.now) q es held := by
  have hself := h.self
  rw [install_of_plain (by rw [hself]; rcases hm with ⟨e, _⟩ | ⟨e, _⟩ <;> rw [e] <;> decide)
    (by rw [hself]; rcases hm with ⟨e, _⟩ | ⟨e, _⟩ <;> rw [e] <;> decide),
    installBasic_of_drive_other (o := u.normalized c o) (by rw [hself]; exact hm)]
  exact (h.replacingBy ho _).map fun hv => hv.brake.noteMoved c

theorem installBasic_from_waiting (h : Does c s u k q es) (ho : k.moc.order = some held) (hm : k.moc.motion = .waiting) :
    Replacing c s (installBasic c n u) k (k.replaced held n).resumed q es held := by
  rw [installBasic_of_waiting (by rw [h.self, hm])]
  exact (h.replacingBy ho _).map fun hv => hv.unwait.noteMoved c

/-- R150: a WAITING channel in no companion link joins the queue. -/
theorem install_waiting_queues (h : Does c s u k q es) (ho : k.moc.order = some held) (hm : k.moc.motion = .waiting)
    (hc : k.cal.companion = none) (hl : s.leadersOf c = []) (hcal : k.cal = (s.ch c).cal) :
    install c o u = Machine.joinStartQueue c (installBasic c (u.normalized c o) u) := by
  obtain ⟨gs, -, -, hv⟩ := h.installBasic_from_waiting (n := u.normalized c o) ho hm
  have hleaders : (installBasic c (u.normalized c o) u).leadersOf c = [] := (leadersOf_congr (fun d => by
    by_cases hd : d = c
    · subst hd
      rw [hv.self, ← hcal]
      rfl
    · rw [hv.other d hd]) c).trans hl
  exact install_of_waiting (n := u.normalized c o) (by rw [h.self, hm]) (by rw [hv.self]; rfl) (by rw [hv.self]; exact hc) hleaders

/-- R150: on a WAITING channel in no companion link. -/
theorem install_from_waiting (h : Does c s u k q es) (ho : k.moc.order = some held) (hm : k.moc.motion = .waiting)
    (hc : k.cal.companion = none) (hl : s.leadersOf c = []) (hcal : k.cal = (s.ch c).cal) (hq : ∀ d ∈ q, d = c) :
    Replacing c s (install c o u) k (k.replaced held (u.normalized c o)).resumed.queued [c] es held := by
  rw [h.install_waiting_queues ho hm hc hl hcal]
  exact (h.installBasic_from_waiting ho hm).map fun hv =>
    hv.queueUp.of_queue (startQueue_joinStartQueue_calm (by rw [hv.queue]; exact hq))

/-- R95: an open that meets a reversal. -/
theorem installBasic_reversal (h : Does c s u k q es) (hrev : k.reversal) : ∃ ds, Dones ds ∧
    Does c s (installBasic c n u) (k.unreversed n (if k.moc.motion = .reversing then .opening else .brakingOrder)) q
      (es ++ [revRecord c k.hif.pos .replaced s.clock.ms] ++ ds) := by
  have hself := h.self
  rcases hrev with hm | hm
  · obtain ⟨ds, hds, hv⟩ := h.replaceReversal n .brakingOrder
    rw [installBasic_of_pinch (by rw [hself, hm]), if_neg (by rw [hm]; decide)]
    exact ⟨ds, hds, hv.noteMoved c⟩
  · obtain ⟨ds, hds, hv⟩ := h.replaceReversal n .opening
    rw [installBasic_of_reversing (by rw [hself, hm]), if_pos hm]
    exact ⟨ds, hds, hv.noteMoved c⟩

/-- R146: without a companion no gate test follows. -/
theorem install_reversal_basic (h : Does c s u k q es) (hrev : k.reversal) (hc : k.cal.companion = none) :
    install c o u = installBasic c (u.normalized c o) u := by
  have hself := h.self
  rcases id hrev with hm | hm
  · exact install_of_plain (by rw [hself, hm]; decide) (by rw [hself, hm]; decide)
  · obtain ⟨ds, -, hv⟩ := h.installBasic_reversal (n := u.normalized c o) hrev
    exact install_of_reversing (by rw [hself, hm]) (by rw [hv.self]; exact hc)

/-- R95: an open that meets a reversal of a channel without companion. -/
theorem install_reversal (h : Does c s u k q es) (hrev : k.reversal) (hc : k.cal.companion = none) : ∃ ds, Dones ds ∧
    Does c s (install c o u) (k.unreversed (u.normalized c o) (if k.moc.motion = .reversing then .opening else .brakingOrder)) q
      (es ++ [revRecord c k.hif.pos .replaced s.clock.ms] ++ ds) := by
  rw [h.install_reversal_basic hrev hc]
  exact h.installBasic_reversal hrev

/-- R106: on an IDLE channel short of the order's target. -/
theorem install_idle (h : Does c s u k q es) (hm : k.moc.motion = .idle)
    (ht : atTarget o.dir (u.normalized c o).target k.hif.pos = false) :
    Does c s (install c o u) (k.ordered (u.normalized c o)).queued
      (Machine.joinStartQueue c (Machine.holdOrder c (u.normalized c o) u)).startQueue es := by
  have hself := h.self
  rw [install_of_plain (by rw [hself, hm]; decide) (by rw [hself, hm]; decide),
    installBasic_of_idle (o := u.normalized c o) (by rw [hself, hm]) (by rw [hself]; exact ht)]
  exact ((h.holdOrder _).queueUp).noteMoved c

end Does

/-! ## The queue that is joined (R105 to R107) -/

/-- R105: the queue with `c` at the tail of its class, the others by the state `s`. -/
def State.joined (s : State) (c : Chan) (d : Dir) : List Chan :=
  let others := s.startQueue.filter (· ≠ c)
  if d = .opening then others.filter s.opens ++ [c] ++ others.filter (!s.opens ·) else others ++ [c]

theorem takeWhile_eq_filter {α : Type} {p : α → Bool} {l : List α} (h : l.Pairwise fun a b => p b = true → p a = true) :
    l.takeWhile p = l.filter p ∧ l.dropWhile p = l.filter (!p ·) := by
  induction l with
  | nil => exact ⟨rfl, rfl⟩
  | cons a l ih =>
    obtain ⟨ha, hl⟩ := List.pairwise_cons.mp h
    obtain ⟨h1, h2⟩ := ih hl
    cases hp : p a with
    | true => simp [hp, h1, h2]
    | false =>
      have hnone : ∀ b ∈ l, p b = false := fun b hb => Bool.eq_false_iff.mpr fun hpb => by
        have := ha b hb hpb
        rw [hp] at this
        cases this
      have hfilter : l.filter p = [] := List.filter_eq_nil_iff.mpr fun b hb => by simp [hnone b hb]
      have hall : l.filter (!p ·) = l := List.filter_eq_self.mpr fun b hb => by simp [hnone b hb]
      simp [hp, hfilter, hall]

theorem startQueue_joinStartQueue (h : Does c s u k s.startQueue es) (ho : k.moc.order = some n) (hf : OpeningFirst s) :
    (joinStartQueue c u).startQueue = s.joined c n.dir := by
  have hopens : u.opens c = decide (n.dir = .opening) := by rw [State.opens, h.self, ho]
  have hother {d : Chan} (hd : d ∈ s.startQueue.filter (· ≠ c)) : u.opens d = s.opens d := by
    have hne : d ≠ c := by simpa using (List.mem_filter.mp hd).2
    rw [State.opens, State.opens, h.other d hne]
  have hpair : (s.startQueue.filter (· ≠ c)).Pairwise fun a b => u.opens b = true → u.opens a = true :=
    (List.Pairwise.filter _ hf).imp_of_mem fun ha hb hab => by rw [hother ha, hother hb]; exact hab
  obtain ⟨h1, h2⟩ := takeWhile_eq_filter hpair
  have hqueue : (joinStartQueue c u).startQueue =
      if u.opens c then (u.startQueue.filter (· ≠ c)).takeWhile u.opens ++ [c] ++ (u.startQueue.filter (· ≠ c)).dropWhile u.opens
      else u.startQueue.filter (· ≠ c) ++ [c] := rfl
  rw [hqueue, h.queue, h1, h2, hopens, List.filter_congr fun d hd => hother hd,
    List.filter_congr fun d hd => congrArg (!·) (hother hd)]
  unfold State.joined
  simp only [decide_eq_true_eq]

end

/-! ## MOVE (R117, R120, R121) -/

section
variable {s : State} {x : Client} {p m : BitVec 4} {a : Word} {c : Chan} {d : Dir} {md : Mode} {org : Origin} {tgt : Target}

theorem not_busyFor_of_admitted (h : s.refusal x c d md org = none) : s.busyFor x c d = false := by
  cases hb : s.busyFor x c d with
  | false => rfl
  | true =>
    unfold State.refusal at h
    rw [hb] at h
    split at h
    · cases h
    · split at h
      · cases h
      · split at h
        · cases h
        · split at h
          · cases h
          · split at h
            · cases h
            · split at h <;> cases h

theorem not_fault_of_admitted (h : s.refusal x c d md org = none) : (s.ch c).moc.motion ≠ .fault := fun hf => by
  unfold State.refusal at h
  split at h
  · cases h
  · split at h
    · cases h
    · rw [if_pos (.inl hf)] at h
      cases h

theorem isRefresh_iff {held : Order} (hf : (s.ch c).moc.motion ≠ .fault) (ho : (s.ch c).moc.order = some held) :
    s.isRefresh x c d md = true ↔
      md = .manual ∧ held.mode = .manual ∧ held.mover = .client ∧ held.client = x ∧ held.dir = d := by
  unfold State.isRefresh
  rw [ho]
  cases hm : (s.ch c).moc.motion with
  | fault => exact absurd hm hf
  | idle => simp [and_assoc]
  | queued => simp [and_assoc]
  | brakingOrder => simp [and_assoc]
  | closing => simp [and_assoc]
  | opening => simp [and_assoc]
  | brakingPinch => simp [and_assoc]
  | reversing => simp [and_assoc]
  | waiting => simp [and_assoc]

/-- R117: what makes a MOVE on channel `c` one that is judged to the end. -/
structure MoveAdmitted (s : State) (x : Client) (p m : BitVec 4) (a : Word) (c : Chan) (d : Dir) (md : Mode) (org : Origin)
    (tgt : Target) : Prop where
  ready : s.ready = true
  chan : chanOf p = some c
  modifier : moveModifier m = some (d, md, org)
  target : targetOf a = some tgt
  populated : (s.ch c).cal.populated = true
  may : s.mayAct x c = true
  right : s.hasRight x .move = true
  passes : s.refusal x c d md org = none

/-- R120: a MOVE that passes the checks and is no refresh. -/
theorem MoveAdmitted.exec (h : MoveAdmitted s x p m a c d md org tgt) (hn : s.isRefresh x c d md = false) :
    Machine.exec (.move x p m a) s = .next (setReply x .accepted (targetWord (s.normalized c (s.moveOrder x c d md org tgt)).target)
      (settle (handOver c (s.moveOrder x c d md org tgt)
        (noteOverride c (s.moveOrder x c d md org tgt).k (received x s))))) := by
  refine serve_routed_of_body h.ready ?_
  rw [moveRequest_eq (s := received x s) h.chan h.modifier h.target h.populated,
    judgeMove_of_passes (s := received x s) ⟨h.may, h.right⟩ (refusalBeforeBusy_of_none h.passes)]
  have hn' : (received x s).isRefresh x c d md = false := hn
  have hb' : (received x s).busyFor x c d = false := not_busyFor_of_admitted (s := received x s) h.passes
  rw [hn', hb']
  rfl

/-- R121: a refresh. -/
theorem MoveAdmitted.exec_refresh (h : MoveAdmitted s x p m a c d md org tgt) (hn : s.isRefresh x c d md = true)
    {held : Order} (ho : (s.ch c).moc.order = some held) :
    Machine.exec (.move x p m a) s = .next (setReply x .accepted (targetWord held.target) (settle (refreshOrder c (received x s)))) := by
  refine serve_routed_of_body h.ready ?_
  rw [moveRequest_eq (s := received x s) h.chan h.modifier h.target h.populated,
    judgeMove_of_passes (s := received x s) ⟨h.may, h.right⟩ (refusalBeforeBusy_of_none h.passes)]
  have hn' : (received x s).isRefresh x c d md = true := hn
  rw [hn', ch_received, ho]
  rfl

/-- R130, R131: the channel before the order of a MOVE is installed. -/
theorem does_admission (s : State) (c : Chan) (d : Dir) (n : Nat) : ∃ k',
    Does c s ((noteOverride c n s).admitting c d) k' s.startQueue [] ∧ SameButAuth (s.ch c) k' := by
  obtain ⟨k', h, hsame⟩ := (Does.refl c s).noteOverride n
  exact ⟨_, h.admitting d, hsame.trans (sameButAuth_admitting d k')⟩

theorem agenda_noteOverride (n : Nat) : (noteOverride c n s).agenda = s.agenda := by
  unfold noteOverride
  split <;> rfl

theorem Does.normalized {u : State} {k : Channel} {q : List Chan} {es : List Event} (h : Does c s u k q es)
    (hk : SameButAuth (s.ch c) k) (o : Order) : u.normalized c o = s.normalized c o :=
  normalized_congr (by rw [h.self]; exact hk)

/-- R120: the installation that an admitted MOVE comes to. -/
theorem MoveAdmitted.installs (h : MoveAdmitted s x p m a c d md org tgt) (hn : s.isRefresh x c d md = false) : ∃ v j,
    Machine.exec (.move x p m a) s = .next (setReply x .accepted (targetWord (s.normalized c (s.moveOrder x c d md org tgt)).target)
      (settle (install c (s.moveOrder x c d md org tgt) v))) ∧
    Does c (received x s) v j s.startQueue [] ∧ SameButAuth (s.ch c) j ∧
    v.normalized c (s.moveOrder x c d md org tgt) = s.normalized c (s.moveOrder x c d md org tgt) ∧ v.agenda = s.agenda := by
  obtain ⟨j, hv, hsame⟩ := does_admission (received x s) c d (s.moveOrder x c d md org tgt).k
  have hexec := h.exec hn
  rw [handOver_eq] at hexec
  exact ⟨_, j, hexec, hv, hsame, hv.normalized hsame _, (agenda_admitting d).trans (agenda_noteOverride _)⟩

/-- R78: the reply to a MOVE that replaced an order. -/
theorem Does.Replacing.answered {w : State} {k l : Channel} {q : List Chan} {held : Order} {r : Result} {word : Word}
    (h : Does.Replacing c (received x s) w k l q [] held) (hl : l.moc.motion ≠ .waiting)
    (hw : ∀ e, e ≠ c → (s.ch e).moc.motion ≠ .waiting)
    (hs : s.spacingElapsed = false ∨ s.glob.ns ≤ s.slotCount ∧ l.moc.slot = (s.ch c).moc.slot) :
    ∃ es, Answered x c s (setReply x r word (Machine.settle w)) r word l q es ∧ es.length ≤ 16 ∧
      endRecord c k.hif.pos .replaced s.clock.ms ∈ es ∧
      ∀ e ∈ endReports c k.hif.pos held k.learning .replaced s.clock.ms, e ∈ es := by
  obtain ⟨gs, hgs, -, hv⟩ := h
  have hset := hs.elim (fun hs => hv.settle_spaced hs hl hw) fun hs => hv.settle_full hs.1 hs.2 hl hw
  have hlen := hv.length_dones hgs
  have hrep := length_endReports (c := c) (x := k.hif.pos) (o := held) (l := k.learning) (e := .replaced) (ms := (received x s).clock.ms)
  refine ⟨_, hset.answered r word, ?_, ?_, fun e he => List.mem_append_right _ he⟩
  · simp only [List.length_append, List.length_singleton, List.length_nil]
    omega
  · simp

theorem refreshOrder_of_order {held : Order} (ho : (s.ch c).moc.order = some held) : refreshOrder c s =
    updMoc c (fun j => { j with order := some { held with refresh := some (s.clock.now + 150000) } }) s := by
  rw [refreshOrder, updMoc_eq, updMoc_eq]
  exact updChan_congr (by rw [ho]; rfl)

theorem drive_within_order {m : Motion} (h : m.drive = some d) (hr : m ≠ .reversing) :
    m = .closing ∧ d = .closing ∨ m = .opening ∧ d = .opening := by
  revert h hr
  cases m <;> simp [Motion.drive] <;> exact fun h => h.symm

theorem drive_of_other {m : Motion} (h : m.drive ≠ some d) (hm : m = .closing ∨ m = .opening) :
    m = .closing ∧ d = .opening ∨ m = .opening ∧ d = .closing := by
  rcases hm with rfl | rfl <;> cases d <;> simp [Motion.drive] at h ⊢

end

/-- Settles O41: the two answers of MOVE, then each motion that an installation meets. -/
theorem moveIsAdmitted : Obligations.MoveIsAdmitted := by
  constructor
  · intro s x p m a c d md org tgt hr hp hm ha hpop hmay hright hpass k o
    have hadm : MoveAdmitted s x p m a c d md org tgt := ⟨hr, hp, hm, ha, hpop, hmay, hright, hpass⟩
    refine ⟨hadm.exec, fun held hagenda hmd ho hheld hmover hclient hdir => ?_⟩
    have hrefresh := (isRefresh_iff (not_fault_of_admitted hpass) ho).mpr ⟨hmd, hheld, hmover, hclient, hdir⟩
    rw [hadm.exec_refresh hrefresh ho, settle_of_nil (s := refreshOrder c (received x s)) hagenda,
      refreshOrder_of_order (s := received x s) ho]
    rfl
  · intro s x p m a c d md org tgt hagenda hq hw hr hp hm ha hpop hmay hright hpass hn hc hl hs old target k n posted
    have hadm : MoveAdmitted s x p m a c d md org tgt := ⟨hr, hp, hm, ha, hpop, hmay, hright, hpass⟩
    obtain ⟨v, j, hexec, hv, hsame, hnorm, -⟩ := hadm.installs hn
    have hmoc : j.moc = old := hsame.moc
    have hpos : j.hif.pos = (s.ch c).hif.pos := congrArg Hif.pos hsame.hif
    rw [hq] at hv
    have hdir : (s.moveOrder x c d md org tgt).dir = d := rfl
    change _ = Host.Outcome.next (setReply x .accepted (targetWord target) _) at hexec
    change _ = n at hnorm
    generalize s.moveOrder x c d md org tgt = o at hexec hnorm hdir
    have hposted {t : State} {l : Channel} {q : List Chan} {es : List Event}
        (h : Answered x c s t .accepted (targetWord target) l q es) (hl : l.hif.pos = (s.ch c).hif.pos) (hctx : l.ctx = (s.ch c).ctx)
        (he : endRecord c (s.ch c).hif.pos .replaced s.clock.ms ∈ es) (hlen : es.length ≤ 16) : posted t .moveEnded 5 :=
      ⟨h.replies, h.other, by rw [h.self, hl], by rw [h.self, hctx], h.holds_end (e := .replaced) he hlen⟩
    refine ⟨fun hsome => ?_, fun hnone hrev hd => ?_⟩
    · obtain ⟨held, ho⟩ := Option.ne_none_iff_exists'.mp hsome
      rw [← hmoc] at ho
      refine ⟨fun hkept => ?_, fun hdrive hon => ?_, fun hwait => ?_⟩
      · have hkept' := hkept.imp_right fun h => drive_within_order h.1 h.2
        rw [← hmoc, ← hdir] at hkept'
        have hrep := hv.install_kept (o := o) ho (.inr hkept')
        rw [hnorm] at hrep
        have hmotion : (j.replaced held n).moc.motion ≠ .waiting := by
          change j.moc.motion ≠ .waiting
          rcases hkept' with h | ⟨h, _⟩ | ⟨h, _⟩ <;> rw [h] <;> decide
        obtain ⟨es, h, hlen, hend, -⟩ := hrep.answered (r := .accepted) (word := targetWord target) hmotion hw (.inl hs)
        rw [hpos] at hend
        refine ⟨_, hexec, hposted h hpos hsame.ctx hend hlen, ?_⟩
        rw [h.self, ← hmoc]
        rfl
      · have hother := drive_of_other hdrive hon
        rw [← hmoc, ← hdir] at hother
        have hrep := hv.install_braked (o := o) ho hother
        rw [hnorm] at hrep
        obtain ⟨es, h, hlen, hend, -⟩ := hrep.answered (r := .accepted) (word := targetWord target) nofun hw (.inl hs)
        rw [hpos] at hend
        have hoff : (j.replaced held n).off s.clock.now = _ := Channel.off_of_drive (by
          change j.moc.motion.drive ≠ none
          rcases hother with ⟨h, _⟩ | ⟨h, _⟩ <;> rw [h] <;> decide)
        refine ⟨_, hexec, hposted h ?_ ?_ hend hlen, ?_⟩
        · exact off_pos.trans hpos
        · exact off_ctx.trans hsame.ctx
        · rw [h.self]
          show { ((j.replaced held n).off s.clock.now).moc with motion := .brakingOrder } = _
          rw [hoff, ← hmoc, ← hsame.cal]
          rfl
      · rw [← hmoc] at hwait
        have hrep := hv.install_from_waiting (o := o) ho hwait (by rw [hsame.cal]; exact hc) hl hsame.cal nofun
        rw [hnorm] at hrep
        obtain ⟨es, h, hlen, hend, -⟩ := hrep.answered (r := .accepted) (word := targetWord target) nofun hw (.inl hs)
        rw [hpos] at hend
        refine ⟨_, hexec, hposted h hpos hsame.ctx hend hlen, ?_, ?_, ?_⟩
        · rw [h.self]
          rfl
        · rw [h.self, ← hmoc]
          rfl
        · exact h.queue
    · have hrev' : j.reversal := by
        have := inReversal_iff.mp hrev
        rwa [Channel.reversal, ← hsame.moc] at this
      obtain ⟨ds, hds, hinst⟩ := hv.install_reversal (o := o) hrev' (by rw [hsame.cal]; exact hc)
      rw [hnorm] at hinst
      have hset := hinst.settle_spaced hs (by
        change (if j.moc.motion = .reversing then Motion.opening else .brakingOrder) ≠ .waiting
        split <;> decide) hw
      have hlen := hset.length_dones' hds
      have h := hset.answered (x := x) (s := s) .accepted (targetWord target)
      refine ⟨_, hexec, ⟨h.replies, h.other, by rw [h.self]; exact hpos, by rw [h.self]; exact hsame.ctx, ?_⟩, ?_⟩
      · exact h.holds_rev (e := .replaced) (by rw [hpos]; simp) (by simp; omega)
      · rw [h.self, ← hmoc]
        rfl

end Sys2Proof.Machine
end

section
/-! Grants to the head of the start queue, and the MOVE that gets its drive at once (R105 to R111). Settles O36, O40. -/

namespace Sys2Proof.Machine

/-! ## The spacing timer runs out (R111) -/

section
variable {s : State} {c : Chan} {since : Nat}

theorem exec_spacingTimerRunOut (hs : s.spacing = .armed since false) (hd : since + 10000 * s.glob.ts ≤ s.clock.now) :
    exec .spacingTimerRunOut s = .next (settle (push .grantTest { s with spacing := .armed since true })) := by
  have hdue : s.spacingDue = true := by
    unfold State.spacingDue
    rw [hs]
    exact decide_eq_true hd
  show finish (if s.spacingDue then spacingRunsOut s else s) = _
  rw [if_pos hdue]
  unfold spacingRunsOut
  rw [hs]
  rfl

end

/-! ## MOVE into the queue (R105 to R107) -/

section
variable {s : State} {x : Client} {p m : BitVec 4} {a : Word} {c : Chan} {d : Dir} {md : Mode} {org : Origin} {tgt : Target}
  {held : Order}

theorem opens_of_order (ho : (s.ch c).moc.order = some held) : s.opens c = decide (held.dir = .opening) := by
  rw [State.opens, ho]

theorem SameButAuth.slot {k k' : Channel} (h : SameButAuth k k') : k'.moc.slot = k.moc.slot := by rw [h.moc]

/-- R106: a MOVE that finds the channel IDLE, and every slot taken. -/
theorem MoveAdmitted.queues (h : MoveAdmitted s x p m a c d md org tgt) (hm : (s.ch c).moc.motion = .idle)
    (ho : (s.ch c).moc.order = none) (ht : atTarget d (s.normalized c (s.moveOrder x c d md org tgt)).target (s.ch c).hif.pos = false)
    (hn : s.glob.ns ≤ s.slotCount) (hw : ∀ e, (s.ch e).moc.motion ≠ .waiting) (hf : OpeningFirst s) :
    ∃ t, Machine.exec (.move x p m a) s = .next t ∧ (t.ch c).moc.motion = .queued ∧ t.startQueue = s.joined c d := by
  obtain ⟨v, j, hexec, hv, hsame, hnorm, -⟩ := h.installs (not_isRefresh_of_no_order ho)
  have hinst := hv.install_idle (o := s.moveOrder x c d md org tgt) (by rw [hsame.moc]; exact hm) (by
    rw [hnorm, hsame.hif]
    exact ht)
  have hqueue := startQueue_joinStartQueue (s := received x s) (n := v.normalized c (s.moveOrder x c d md org tgt))
    (hv.holdOrder _) rfl hf
  have hset := (hinst.of_queue hqueue).settle_full hn hsame.slot nofun fun e _ => hw e
  exact ⟨_, hexec, congrArg (fun k => k.moc.motion) hset.self, hset.queue⟩

/-- R107: on a QUEUED channel, for the other direction. -/
theorem MoveAdmitted.requeues (h : MoveAdmitted s x p m a c d md org tgt) (hm : (s.ch c).moc.motion = .queued)
    (ho : (s.ch c).moc.order = some held) (hd : s.opens c ≠ decide (d = .opening)) (hn : s.glob.ns ≤ s.slotCount)
    (hw : ∀ e, (s.ch e).moc.motion ≠ .waiting) (hf : OpeningFirst s) :
    ∃ t, Machine.exec (.move x p m a) s = .next t ∧ (t.ch c).moc.motion = .queued ∧ t.startQueue = s.joined c d := by
  have hnew : s.isRefresh x c d md = false := Bool.eq_false_iff.mpr fun hr => by
    obtain ⟨-, -, -, -, hdir⟩ := (isRefresh_iff (by rw [hm]; decide) ho).mp hr
    rw [opens_of_order ho, hdir] at hd
    exact hd rfl
  obtain ⟨v, j, hexec, hv, hsame, hnorm, -⟩ := h.installs hnew
  have hheld : j.moc.order = some held := by rw [hsame.moc, ho]
  have hopens : v.opens c = s.opens c := by rw [opens_of_order ho, opens_of_order (by rw [hv.self, hheld])]
  have hrep := hv.install_requeued (o := s.moveOrder x c d md org tgt) hheld (by rw [hsame.moc]; exact hm) (by rw [hopens]; exact hd)
  obtain ⟨gs, -, -, hplace⟩ := hv.replacingBy hheld (v.normalized c (s.moveOrder x c d md org tgt))
  rw [startQueue_joinStartQueue (s := received x s) (n := v.normalized c (s.moveOrder x c d md org tgt)) hplace rfl hf] at hrep
  obtain ⟨es, ha, -⟩ := hrep.answered (r := .accepted)
    (word := targetWord (s.normalized c (s.moveOrder x c d md org tgt)).target) nofun (fun e _ => hw e)
    (.inr ⟨hn, hsame.slot⟩)
  exact ⟨_, hexec, congrArg (fun k => k.moc.motion) ha.self, ha.queue⟩

/-- R107: on a QUEUED channel, for the same direction. -/
theorem MoveAdmitted.keeps_place (h : MoveAdmitted s x p m a c d md org tgt) (hm : (s.ch c).moc.motion = .queued)
    (ho : (s.ch c).moc.order = some held) (hd : s.opens c = decide (d = .opening)) (hn : s.glob.ns ≤ s.slotCount)
    (hw : ∀ e, (s.ch e).moc.motion ≠ .waiting) (hagenda : s.agenda = []) :
    ∃ t, Machine.exec (.move x p m a) s = .next t ∧ (t.ch c).moc.motion = .queued ∧ t.startQueue = s.startQueue := by
  cases hnew : s.isRefresh x c d md with
  | true =>
    have hexec := h.exec_refresh hnew ho
    rw [settle_of_nil (s := refreshOrder c (received x s)) hagenda, refreshOrder_of_order (s := received x s) ho] at hexec
    have hself := ((Does.refl c (received x s)).updMoc fun j => { j with
      order := some { held with refresh := some ((received x s).clock.now + 150000) } }).self
    exact ⟨_, hexec, (congrArg (fun k => k.moc.motion) hself).trans hm, rfl⟩
  | false =>
    obtain ⟨v, j, hexec, hv, hsame, hnorm, -⟩ := h.installs hnew
    have hheld : j.moc.order = some held := by rw [hsame.moc, ho]
    have hopens : v.opens c = s.opens c := by rw [opens_of_order ho, opens_of_order (by rw [hv.self, hheld])]
    have hqueued : j.moc.motion = .queued := by rw [hsame.moc]; exact hm
    have hrep := hv.install_kept (o := s.moveOrder x c d md org tgt) hheld (.inl ⟨hqueued, by rw [hopens]; exact hd⟩)
    obtain ⟨es, ha, -⟩ := hrep.answered (r := .accepted)
      (word := targetWord (s.normalized c (s.moveOrder x c d md org tgt)).target)
      (by change j.moc.motion ≠ .waiting; rw [hqueued]; decide) (fun e _ => hw e)
      (.inr ⟨hn, hsame.slot⟩)
    exact ⟨_, hexec, (congrArg (fun k => k.moc.motion) ha.self).trans hqueued, ha.queue⟩

end

/-! ## An idle channel that gets its drive at once (R109, R110) -/

section
variable {s u : State} {c : Chan} {k : Channel} {o : Order}

/-- Who leads a channel, when a channel keeps its companion. -/
theorem Does.leadersOf {v : State} {j : Channel} {q : List Chan} {es : List Event} (hv : Does c s v j q es)
    (hj : j.cal.companion = (s.ch c).cal.companion) (e : Chan) : v.leadersOf e = s.leadersOf e :=
  leadersOf_congr (fun d => by
    by_cases hdc : d = c
    · subst hdc
      rw [hv.self, hj]
    · rw [hv.other d hdc]) e

/-- A grant test left to be done, and the report of an order that nobody waits for. -/
theorem settle_grant_moved {t : State} (ha : u.agenda = [.grantTest, .moved c []])
    (ht : grantTest { u with agenda := [.moved c []] } = t) (hagenda : t.agenda = [.moved c []]) :
    settle u = { t with agenda := [] } := by
  rw [settle_cons ha]
  show settleN 255 (grantTest _) = _
  rw [ht]
  refine settleN_of_inert (fun k hk a => ?_) 255
  rw [hagenda] at hk
  rw [List.mem_singleton.mp hk]
  rfl

/-- R106, R109: an order for an IDLE channel that leads and follows no other joins the queue and leaves a grant test. -/
theorem agenda_installBasic_idle (hm : (u.ch c).moc.motion = .idle) (ht : atTarget o.dir o.target (u.ch c).hif.pos = false)
    (ha : u.agenda = []) (hl : u.leadersOf c = []) : (installBasic c o u).agenda = [.grantTest, .moved c []] := by
  have hold : (holdOrder c o u).agenda = [] := by
    unfold holdOrder
    dsimp only
    split
    · split <;> exact ha
    · exact ha
  have hwaiters : (joinStartQueue c (holdOrder c o u)).waitersOn c = [] := by
    have hd := ((Does.refl c u).holdOrder o).queueUp
    have hleaders : (joinStartQueue c (holdOrder c o u)).leadersOf c = [] := (hd.leadersOf rfl c).trans hl
    rw [State.waitersOn, hleaders]
    rfl
  rw [installBasic_of_idle hm ht]
  show (joinStartQueue c (holdOrder c o u)).agenda ++ [.moved c ((joinStartQueue c (holdOrder c o u)).waitersOn c)] = _
  rw [hwaiters]
  show (holdOrder c o u).agenda ++ [.grantTest] ++ [.moved c []] = _
  rw [hold]
  rfl

/-- R84, R110: the channel as a grant leaves it. -/
def Channel.granted (o : Order) (now : Nat) (k : Channel) : Channel :=
  ({ k with moc := { k.moc with slot := true } } : Channel).driving now o.dir.motion o.dir

/-- R106: an order for an IDLE channel and an empty queue. -/
theorem install_idle_calm {v : State} {j : Channel} {es : List Event} (hv : Does c s v j [] es) (hva : v.agenda = [])
    (hm : j.moc.motion = .idle) (ht : atTarget o.dir (v.normalized c o).target j.hif.pos = false) (hl : v.leadersOf c = []) :
    Does c s (install c o v) (j.ordered (v.normalized c o)).queued [c] es ∧ (install c o v).agenda = [.grantTest, .moved c []] := by
  refine ⟨(hv.install_idle (o := o) hm ht).of_queue (startQueue_joinStartQueue_calm (c := c) (by
    rw [(hv.holdOrder (v.normalized c o)).queue]
    exact nofun)), ?_⟩
  rw [install_of_plain (by rw [hv.self, hm]; decide) (by rw [hv.self, hm]; decide)]
  exact agenda_installBasic_idle (by rw [hv.self, hm]) (by rw [hv.self]; exact ht) hva hl

/-- R109: the drive of such an order waits for a slot, for the spacing, or for the brake timer. -/
theorem settle_install_idle_queued {v : State} {j : Channel} {es : List Event} (hv : Does c s v j [] es) (hva : v.agenda = [])
    (hm : j.moc.motion = .idle) (ht : atTarget o.dir (v.normalized c o).target j.hif.pos = false) (hl : v.leadersOf c = [])
    (hslot : j.moc.slot = (s.ch c).moc.slot)
    (hn : s.spacingElapsed = false ∨ s.glob.ns ≤ s.slotCount ∨ j.moc.brakeRunning = true) :
    settle (install c o v) = { install c o v with agenda := [] } := by
  obtain ⟨hw, ha⟩ := install_idle_calm (o := o) hv hva hm ht hl
  generalize install c o v = w at hw ha ⊢
  have hgate : grantTest { w with agenda := [.moved c []] } = { w with agenda := [.moved c []] } := by
    rcases hn with hn | hn | hn
    · exact grantTest_of_gated (.inl (hw.spacingElapsed.trans hn))
    · refine grantTest_of_gated (.inr ?_)
      show w.glob.ns ≤ w.slotCount
      rw [hw.slotCount hslot, hw.glob]
      exact hn
    · have hnone : ({ w with agenda := [.moved c []] } : State).eligible = none := by
        have hb : (w.ch c).moc.brakeRunning = true := by rw [hw.self]; exact hn
        have hq : ({ w with agenda := [.moved c []] } : State).startQueue = [c] := hw.queue
        rw [State.eligible, hq]
        exact List.find?_eq_none.mpr fun d hd => by
          rw [List.mem_singleton.mp hd]
          show ¬ (!(w.ch c).moc.brakeRunning) = true
          rw [hb]
          decide
      unfold grantTest
      rw [hnone]
      split <;> rfl
  rw [settle_grant_moved ha hgate rfl]

/-- R106, R109, R110: with a slot free and the spacing run out the order's drive is on at once. -/
theorem settle_install_idle {v : State} {j : Channel} {es : List Event} (hv : Does c s v j [] es) (hva : v.agenda = [])
    (hm : j.moc.motion = .idle) (ht : atTarget o.dir (v.normalized c o).target j.hif.pos = false) (hb : j.moc.brakeRunning = false)
    (hc : o.dir = .opening → j.cal.companion = none) (hl : v.leadersOf c = []) (hslots : s.slotCount < s.glob.ns)
    (hslot : j.moc.slot = (s.ch c).moc.slot) (hcal : j.cal.companion = (s.ch c).cal.companion) (hs : s.spacingElapsed = true) :
    Does c s (install c o v) (j.ordered (v.normalized c o)).queued [c] es ∧
      Drives c (install c o v) (settle (install c o v)) ((j.ordered (v.normalized c o)).queued.granted o s.clock.now) [] := by
  obtain ⟨hw, ha⟩ := install_idle_calm (o := o) hv hva hm ht hl
  refine ⟨hw, ?_⟩
  have hleaders : (install c o v).leadersOf c = [] := by
    rw [hw.leadersOf hcal, ← hv.leadersOf hcal, hl]
  generalize install c o v = w at hw ha hleaders ⊢
  obtain ⟨hdrive, hnone⟩ := drives_grantTest (s := { w with agenda := [.moved c []] }) (o := v.normalized c o) (c := c)
    (ahead := []) (behind := []) (by show w.slotCount < w.glob.ns; rw [hw.slotCount hslot, hw.glob]; exact hslots)
    (hw.spacingElapsed.trans hs) hw.queue (by show w.startQueue.Nodup; rw [hw.queue]; simp) nofun
    (by show (w.ch c).moc.brakeRunning = false; rw [hw.self]; exact hb)
    (by show (w.ch c).moc.order = _; rw [hw.self]; rfl) (by show atTarget _ _ (w.ch c).hif.pos = false; rw [hw.self]; exact ht)
    (fun h => by show (w.ch c).cal.companion = none; rw [hw.self]; exact hc h) hleaders
  rw [settle_grant_moved ha rfl hnone]
  have hself : ({ w with agenda := [.moved c []] } : State).ch c = (j.ordered (v.normalized c o)).queued := hw.self
  rw [hself] at hdrive
  have hclock : ({ w with agenda := [.moved c []] } : State).clock.now = s.clock.now := congrArg Clock.now hw.clock
  rw [hclock] at hdrive
  refine ⟨hdrive.self, hdrive.blanked, ?_⟩
  have hframe := hdrive.frame
  generalize grantTest { w with agenda := [.moved c []] } = u at hframe
  generalize u.chans = ks, u.lde = l, u.agenda = a at hframe ⊢
  rw [hframe]
  rfl

end

/-- Settles O36: the grant at the run-out, and the places of the queue by what a MOVE finds. -/
theorem spacingRunOutGrantsTheHead : Obligations.SpacingRunOutGrantsTheHead := by
  constructor
  · intro s ahead behind c o since hagenda hq hn hahead hs hd hslots hb hm ho ht hc hl
    have hexec := exec_spacingTimerRunOut hs hd
    obtain ⟨v, hv⟩ : ∃ v, v = { s with spacing := .armed since true } := ⟨_, rfl⟩
    rw [← hv] at hexec
    obtain ⟨hdrive, hnone⟩ := drives_grantTest (s := v) (o := o) (c := c) (ahead := ahead) (behind := behind) (by rw [hv]; exact hslots)
      (by rw [hv]; exact decide_eq_true hd) (by rw [hv]; exact hq) (by rw [hv]; exact hn) (by rw [hv]; exact hahead)
      (by rw [hv]; exact hb) (by rw [hv]; exact ho) (by rw [hv]; exact ht) (fun _ => by rw [hv]; exact hc) (by rw [hv]; exact hl)
    have hvagenda : v.agenda = [] := by rw [hv]; exact hagenda
    rw [settle_push_grantTest hvagenda (hnone.trans hvagenda)] at hexec
    subst hv
    obtain ⟨h1, -, h3, h4, -, h6, h7, h8⟩ := hdrive.facts (k := { s.ch c with moc := { (s.ch c).moc with slot := true } }) hb rfl
    refine ⟨_, hexec, by rw [hdrive.frame], h6, ?_, ?_, h1, h3, h4, h7, h8⟩ <;> rw [hdrive.self]
    · rfl
    · exact ho
  · intro s x p m a c d md org tgt ⟨hrow, hnodup, hfirst, _, _, hagenda⟩ hr hp hm ha hpop hmay hright hpass hslots hw others joined
    have hadm : MoveAdmitted s x p m a c d md org tgt := ⟨hr, hp, hm, ha, hpop, hmay, hright, hpass⟩
    have hrows : (s.ch c).moc.order.isSome = true ↔ (s.ch c).moc.motion ∈ [.queued, .brakingOrder, .closing, .opening, .waiting] :=
      (hrow c).1
    refine ⟨fun hidle ht => hadm.queues hidle (by simpa [hidle] using hrows) ht hslots hw hfirst, fun hqueued hd => ?_,
      fun hqueued hd => ?_⟩
    · obtain ⟨held, ho⟩ := Option.isSome_iff_exists.mp (hrows.mpr (by rw [hqueued]; decide))
      exact hadm.requeues hqueued ho hd hslots hw hfirst
    · obtain ⟨held, ho⟩ := Option.isSome_iff_exists.mp (hrows.mpr (by rw [hqueued]; decide))
      exact hadm.keeps_place hqueued ho hd hslots hw hagenda

/-- Settles O40: the order joins an empty queue and is granted at once. -/
theorem moveCloseStartsTheDrive : Obligations.MoveCloseStartsTheDrive := by
  intro s x p c hagenda hr hload herase hp hpop hmay hright hlock hclaims hm ho hb hlevel hsup hq hs hslots hl
  have hpass : s.refusal x c .closing .auto .localReq = none := by
    simp [State.refusal, hlock, hclaims, hm, hload, herase, hlevel, levelAllows, hsup, State.busyFor, State.inReversal, ho]
  have hadm : MoveAdmitted s x p 2 0xFFFF c .closing .auto .localReq .toEnd := ⟨hr, hp, by decide, by decide, hpop, hmay, hright, hpass⟩
  obtain ⟨v, j, hexec, hv, hsame, hnorm, hva⟩ := hadm.installs (not_isRefresh_of_no_order ho)
  have hnew : s.normalized c (s.moveOrder x c .closing .auto .localReq .toEnd) =
      ⟨.closing, .auto, .toEnd, .localReq, .client, x, .notLearning, 0, none, s.clock.ms⟩ := by
    simp [State.normalized, State.moveOrder, State.overrideFor, normalizeTarget, hlevel]
  have hdir : (s.moveOrder x c .closing .auto .localReq .toEnd).dir = .closing := rfl
  generalize s.moveOrder x c .closing .auto .localReq .toEnd = o at hexec hnorm hnew hdir
  rw [hnew] at hexec hnorm
  rw [hq] at hv
  have hcompanion : j.cal.companion = ((received x s).ch c).cal.companion := congrArg (·.companion) hsame.cal
  obtain ⟨hw, hdrive⟩ := settle_install_idle (o := o) hv (hva.trans hagenda) (by rw [hsame.moc, hm]) (by rw [hnorm, hdir]; rfl)
    (by rw [hsame.moc, hb]) (fun h => by rw [hdir] at h; cases h) ((hv.leadersOf hcompanion c).trans hl) hslots hsame.slot
    hcompanion hs
  have hhif := hsame.hif
  generalize install c o v = w at hw hdrive hexec
  generalize settle w = t at hdrive hexec
  have hself := hdrive.self
  unfold Channel.granted at hself
  rw [hdir] at hself
  refine ⟨_, hexec, replies_setReply .., ?_⟩
  rw [hnorm] at hself
  refine ⟨congrArg (fun k => k.moc.motion) hself, congrArg (fun k => k.moc.order) hself, congrArg (fun k => k.moc.slot) hself,
    congrArg (fun k => k.moc.stall) hself, congrArg (fun k => k.ctx.runDir) hself, congrArg (fun k => k.ctx.seeded) hself,
    congrArg (fun k => k.ctx.smoothed) hself, (congrArg (fun k => k.hif.pos) hself).trans (congrArg Hif.pos hhif),
    congrArg (fun k => k.hif.fifo) hself, congrArg State.startQueue hdrive.frame,
    (congrArg State.spacing hdrive.frame).trans (congrArg (fun k => Spacing.armed k.now false) hw.clock), fun d hd => ?_,
    fun y hy => ?_⟩
  · exact (hdrive.blanked d hd).trans (congrArg Channel.blanked (hw.other d hd))
  · rw [link_setReply_ne (Ne.symm hy), hdrive.frame]
    exact (link_congr hw.links y).trans (link_received_ne (Ne.symm hy) s)

end Sys2Proof.Machine
end

section
/-! GROUP MOVE: the entry taken and the members judged one after another (R137 to R139). -/

namespace Sys2Proof.Machine

/-! ## What judges a member (R139) -/

section
variable {s v : State} {x : Client} {dir : Dir} {org : Origin} {g : Fin 4} {c : Chan} {e e' : GroupEntry} {r : Result} {l : List Chan}

/-- The checks of a member find in `v` what they found in `s`. -/
structure JudgedAlike (s v : State) (c : Chan) : Prop where
  auth : (v.ch c).auth = (s.ch c).auth
  moc : (v.ch c).moc = (s.ch c).moc
  level : (v.ch c).level = (s.ch c).level
  glob : v.glob = s.glob
  calLoaded : v.calLoaded = s.calLoaded
  nvc : v.nvc = s.nvc
  sup : v.sup = s.sup
  clock : v.clock = s.clock

theorem JudgedAlike.refl (s : State) (c : Chan) : JudgedAlike s s c := ⟨rfl, rfl, rfl, rfl, rfl, rfl, rfl, rfl⟩

theorem JudgedAlike.of_eq (hc : v.ch c = s.ch c) (h : SameDevice s v) : JudgedAlike s v c := by
  obtain ⟨h1, -, h3, -, h5, h6, -, -, -, -, h11, -⟩ := h
  exact ⟨by rw [hc], by rw [hc], by rw [hc], h5, h6, h11, h3, h1⟩

theorem refusal_congr (h : JudgedAlike s v c) {m : Mode} : v.refusal x c dir m org = s.refusal x c dir m org := by
  have hbusy : v.busyFor x c dir = s.busyFor x c dir := by
    unfold State.busyFor State.inReversal
    rw [h.moc, h.clock]
  have herase : v.erasing = s.erasing := by
    unfold State.erasing
    rw [h.nvc]
  have hlock : v.lockedOut x c = s.lockedOut x c := by
    unfold State.lockedOut
    rw [h.auth]
  unfold State.refusal
  rw [hbusy, herase, hlock, h.auth, h.moc, h.level, h.calLoaded, h.sup]

theorem memberRefusal_congr (h : JudgedAlike s v c) : v.memberRefusal x dir org c = s.memberRefusal x dir org c := by
  have hmay : v.mayAct x c = s.mayAct x c := by
    unfold State.mayAct State.rights
    rw [h.glob]
  unfold State.memberRefusal
  rw [hmay, refusal_congr h]

theorem setGroup_self (h : v.group g = some e) : setGroup g (some e) v = v := by
  have hset : v.groups.set g (some e) = v.groups := by
    rw [← h]
    exact Vector.set_getElem_self ..
  rw [setGroup, hset]

theorem setGroup_setGroup (a b : Option GroupEntry) : setGroup g a (setGroup g b v) = setGroup g a v := by
  simp [setGroup]

theorem skipMember_of_some (h : v.group g = some e) : skipMember g c r v = setGroup g (some (e.judged c (.skipped r))) v := by
  simp only [skipMember, h]
  rfl

theorem admitMember_of_refused {m : Admission} (h : m.state.memberRefusal x dir org c = some r) :
    admitMember g x dir org m c = ⟨skipMember g c r m.state, some (m.refusal.getD r), m.admitted⟩ := by
  simp only [admitMember, h]

theorem admitMember_of_passing {m : Admission} (h : m.state.memberRefusal x dir org c = none) :
    admitMember g x dir org m c = ⟨settle (handOver c (memberOrder g x dir org m.state.clock.ms) m.state), m.refusal, true⟩ := by
  simp only [admitMember, h]

theorem admitted_foldl {m : Admission} (h : m.admitted = true) (l : List Chan) :
    (l.foldl (admitMember g x dir org) m).admitted = true := by
  induction l generalizing m with
  | nil => exact h
  | cons c l ih =>
    refine ih ?_
    unfold admitMember
    split
    · exact h
    · rfl

theorem judged_members (o : MemberOutcome) (d : Chan) : (e.judged c o).members[d] = if d = c then some o else e.members[d] := by
  by_cases h : d = c
  · subst h
    simp [GroupEntry.judged]
  · have hne : (c : Nat) ≠ (d : Nat) := fun e => h (Fin.ext e.symm)
    simp [GroupEntry.judged, Vector.getElem_set_ne, hne, h]

/-- `e'` is entry `e` with each member of `l` SKIPPED with its refusal. -/
structure Skips (s : State) (x : Client) (dir : Dir) (org : Origin) (l : List Chan) (e e' : GroupEntry) : Prop where
  same : e' = { e with members := e'.members }
  members : ∀ d : Chan, e'.members[d] = if d ∈ l then (s.memberRefusal x dir org d).map MemberOutcome.skipped else e.members[d]

/-- R139: members that are all refused. -/
theorem foldl_admitMember_of_refused {m : Admission} (hl : ∀ d ∈ l, JudgedAlike s m.state d ∧ s.memberRefusal x dir org d ≠ none)
    (hg : m.state.group g = some e) : ∃ e' r, l.foldl (admitMember g x dir org) m = ⟨setGroup g (some e') m.state, r, m.admitted⟩ ∧
      Skips s x dir org l e e' ∧ ∀ r₀, m.refusal = some r₀ → r = some r₀ := by
  induction l generalizing m e with
  | nil => exact ⟨e, m.refusal, by rw [setGroup_self hg, List.foldl_nil], ⟨rfl, fun d => by simp⟩, fun _ h => h⟩
  | cons c l ih =>
    obtain ⟨halike, hne⟩ := hl c (List.mem_cons_self ..)
    obtain ⟨r, hr⟩ := Option.ne_none_iff_exists'.mp hne
    have hrefused := (memberRefusal_congr (x := x) (dir := dir) (org := org) halike).trans hr
    have hstep := admitMember_of_refused (g := g) hrefused
    rw [skipMember_of_some hg] at hstep
    obtain ⟨e', r', hfold, hskips, hkept⟩ := ih (m := ⟨setGroup g (some (e.judged c (.skipped r))) m.state,
      some (m.refusal.getD r), m.admitted⟩) (e := e.judged c (.skipped r)) (fun d hd => by
        obtain ⟨h, hd'⟩ := hl d (List.mem_cons_of_mem _ hd)
        exact ⟨⟨h.auth, h.moc, h.level, h.glob, h.calLoaded, h.nvc, h.sup, h.clock⟩, hd'⟩) (group_setGroup_self ..)
    refine ⟨e', r', ?_, ⟨hskips.same, fun d => ?_⟩, fun r₀ h => ?_⟩
    · rw [List.foldl_cons, hstep, hfold, setGroup_setGroup]
    · rw [hskips.members]
      by_cases hd : d ∈ l
      · rw [if_pos hd, if_pos (List.mem_cons_of_mem _ hd)]
      · rw [if_neg hd, judged_members]
        by_cases hdc : d = c
        · subst hdc
          simp [hr]
        · rw [if_neg hdc, if_neg (by simp [hd, hdc])]
    · exact hkept r₀ (by simp [h])

end

/-! ## The request (R137, R138) -/

section
variable {s : State} {x : Client} {m : BitVec 4} {a : Word} {mask : BitVec 8} {dir : Dir} {org : Origin} {g : Fin 4} {c : Chan}

/-- R138: the populated channels of the mask. -/
def State.membersOf (s : State) (mask : BitVec 8) : List Chan := (maskChans mask).filter s.populated

theorem mem_membersOf {d : Chan} : d ∈ s.membersOf mask ↔ inMask mask d = true ∧ (s.ch d).cal.populated = true := by
  rw [State.membersOf, List.mem_filter, mem_maskChans, State.populated]

theorem membersOf_sorted : (s.membersOf mask).Pairwise (· < ·) :=
  ((by decide : allChans.Pairwise (· < ·)).filter _).filter _

theorem freeEntry_of_lowest (hg : s.group g = none) (hl : ∀ h : Fin 4, h < g → s.group h ≠ none) : s.freeEntry = some g := by
  have hfind : ∀ f : Fin 4 → Bool, f g = true → (∀ h < g, f h = false) → ([0, 1, 2, 3] : List (Fin 4)).find? f = some g := by
    clear hg hl
    revert g
    decide
  refine hfind (fun h => (s.group h).isNone) (by simp [hg]) fun h hlt => ?_
  simpa [Option.isSome_iff_ne_none] using hl h hlt

theorem freeEntry_of_full (h : ∀ g, s.group g ≠ none) : s.freeEntry = none :=
  List.find?_eq_none.mpr fun g _ => by simpa using h g

/-- What a GROUP MOVE with a member must meet to be judged member by member. -/
structure GroupMoveHeard (s : State) (x : Client) (m : BitVec 4) (a : Word) (mask : BitVec 8) (dir : Dir) (org : Origin) (c : Chan) :
    Prop where
  ready : s.ready = true
  loaded : s.calLoaded = true
  kept : s.erasing = false
  modifier : groupModifier m = some (dir, org)
  argument : panelMask a = some mask
  right : s.hasRight x .group = true
  member : c ∈ s.membersOf mask

theorem GroupMoveHeard.received (h : GroupMoveHeard s x m a mask dir org c) : GroupMoveHeard (Machine.received x s) x m a mask dir org c :=
  ⟨h.ready, h.loaded, h.kept, h.modifier, h.argument, h.right, h.member⟩

theorem GroupMoveHeard.request_of_free (h : GroupMoveHeard s x m a mask dir org c) (hg : s.freeEntry = some g) :
    groupMoveRequest x 15 m a s = admitMembers g x dir org (s.membersOf mask) s := by
  have hne : (s.membersOf mask).isEmpty = false := List.isEmpty_eq_false_iff_exists_mem.mpr ⟨c, h.member⟩
  unfold State.membersOf at *
  simp only [groupMoveRequest, h.modifier, h.argument, isPanel15, hne, h.right, h.ready, h.loaded, h.kept, hg]
  rfl

theorem GroupMoveHeard.request_of_full (h : GroupMoveHeard s x m a mask dir org c) (hg : s.freeEntry = none) :
    groupMoveRequest x 15 m a s = refuse .busy s := by
  have hne : (s.membersOf mask).isEmpty = false := List.isEmpty_eq_false_iff_exists_mem.mpr ⟨c, h.member⟩
  unfold State.membersOf at *
  simp only [groupMoveRequest, h.modifier, h.argument, isPanel15, hne, h.right, h.ready, h.loaded, h.kept, hg]
  rfl

theorem foldl_set_toJudge (cs : List Chan) (v : Vector (Option MemberOutcome) 8) (d : Chan) :
    (cs.foldl (fun (v : Vector (Option MemberOutcome) 8) (c : Chan) => v.set c (some .toJudge)) v)[d] =
      if d ∈ cs then some .toJudge else v[d] := by
  induction cs generalizing v with
  | nil => simp
  | cons c cs ih =>
    rw [List.foldl_cons, ih]
    by_cases hd : d ∈ cs
    · simp [hd]
    · by_cases hdc : d = c
      · subst hdc
        simp [hd]
      · have hne : (c : Nat) ≠ (d : Nat) := fun e => hdc (Fin.ext e.symm)
        simp [hd, hdc, Vector.getElem_set_ne, hne]

/-- R137: the entry of a request for the members `cs`, those of `l` SKIPPED with their refusals, the others still to be judged. -/
structure EntryOf (s : State) (x : Client) (dir : Dir) (org : Origin) (cs l : List Chan) (e : GroupEntry) : Prop where
  serial : e.serial = nextSerial s.serial
  owner : e.owner = x
  direction : e.dir = dir
  origin : e.origin = org
  members : ∀ d : Chan, e.members[d] =
    if d ∈ l then (s.memberRefusal x dir org d).map MemberOutcome.skipped else if d ∈ cs then some .toJudge else none

theorem EntryOf.skips {cs l : List Chan} {e e' : GroupEntry} (h : EntryOf s x dir org cs [] e) (hs : Skips s x dir org l e e') :
    EntryOf s x dir org cs l e' := by
  have hsame := hs.same
  refine ⟨by rw [hsame]; exact h.serial, by rw [hsame]; exact h.owner, by rw [hsame]; exact h.direction, by rw [hsame]; exact h.origin,
    fun d => ?_⟩
  rw [hs.members, h.members]
  simp

theorem takeEntry_eq (cs : List Chan) : ∃ e, EntryOf s x dir org cs [] e ∧
    takeEntry g x dir org cs s = setGroup g (some e) { s with serial := nextSerial s.serial } := by
  refine ⟨_, ⟨rfl, rfl, rfl, rfl, fun d => ?_⟩, rfl⟩
  dsimp only
  rw [foldl_set_toJudge]
  simp

theorem foldl_split {α β : Type} {f : β → α → β} {cs l l' : List α} {c : α} {m₀ m₁ m₂ : β} (hcs : cs = l ++ c :: l')
    (h₁ : l.foldl f m₀ = m₁) (h₂ : f m₁ c = m₂) : cs.foldl f m₀ = l'.foldl f m₂ := by
  rw [hcs, List.foldl_append, h₁, List.foldl_cons, h₂]

/-- R139: the request with one member that passes, `c`, and the members `l` ahead of it. -/
theorem admitMembers_of_one {cs l l' : List Chan} (hcs : cs = l ++ c :: l') (hc : s.memberRefusal x dir org c = none)
    (hl : ∀ d ∈ l, s.memberRefusal x dir org d ≠ none) : ∃ e r, EntryOf s x dir org cs l e ∧
      admitMembers g x dir org cs s = ⟨.accepted, bytesWord g.val (nextSerial s.serial), finishGroup g
        (l'.foldl (admitMember g x dir org) ⟨settle (install c (memberOrder g x dir org s.clock.ms)
          ((setGroup g (some e) { s with serial := nextSerial s.serial }).admitting c dir)), r, true⟩).state⟩ := by
  obtain ⟨e₀, he₀, htake⟩ := takeEntry_eq (s := s) (x := x) (dir := dir) (org := org) (g := g) cs
  obtain ⟨e, r, hfold, hskips, -⟩ := foldl_admitMember_of_refused (s := s) (x := x) (dir := dir) (org := org) (g := g) (l := l)
    (m := ⟨takeEntry g x dir org cs s, none, false⟩) (e := e₀)
    (fun d hd => ⟨by rw [htake]; exact ⟨rfl, rfl, rfl, rfl, rfl, rfl, rfl, rfl⟩, hl d hd⟩) (by rw [htake]; exact group_setGroup_self ..)
  refine ⟨e, r, he₀.skips hskips, ?_⟩
  have hstate : setGroup g (some e) (takeEntry g x dir org cs s) = setGroup g (some e) { s with serial := nextSerial s.serial } := by
    rw [htake, setGroup_setGroup]
  have hpass : (setGroup g (some e) { s with serial := nextSerial s.serial }).memberRefusal x dir org c = none := by
    rw [memberRefusal_congr ⟨rfl, rfl, rfl, rfl, rfl, rfl, rfl, rfl⟩]
    exact hc
  have hadmit : admitMember g x dir org ⟨setGroup g (some e) { s with serial := nextSerial s.serial }, r, false⟩ c =
      ⟨settle (install c (memberOrder g x dir org s.clock.ms)
        ((setGroup g (some e) { s with serial := nextSerial s.serial }).admitting c dir)), r, true⟩ := by
    rw [admitMember_of_passing (m := ⟨setGroup g (some e) { s with serial := nextSerial s.serial }, r, false⟩) hpass, handOver_eq]
    rfl
  rw [hstate] at hfold
  have hall := foldl_split hcs hfold hadmit
  unfold admitMembers
  rw [hall, if_pos (admitted_foldl rfl l')]

/-- R139: the request none of whose members passes. -/
theorem admitMembers_of_none {cs : List Chan} {r : Result} (hcs : cs.head? = some c) (hc : s.memberRefusal x dir org c = some r)
    (hl : ∀ d ∈ cs, s.memberRefusal x dir org d ≠ none) : admitMembers g x dir org cs s = refuse r s := by
  obtain ⟨l, rfl⟩ := List.head?_eq_some_iff.mp hcs
  obtain ⟨e₀, -, htake⟩ := takeEntry_eq (s := s) (x := x) (dir := dir) (org := org) (g := g) (c :: l)
  have hpass := (memberRefusal_congr (x := x) (dir := dir) (org := org) (s := s) (v := takeEntry g x dir org (c :: l) s) (c := c)
    (by rw [htake]; exact ⟨rfl, rfl, rfl, rfl, rfl, rfl, rfl, rfl⟩)).trans hc
  have hgroup : (takeEntry g x dir org (c :: l) s).group g = some e₀ := by rw [htake]; exact group_setGroup_self ..
  have hstep := admitMember_of_refused (g := g) (m := ⟨takeEntry g x dir org (c :: l) s, none, false⟩) hpass
  rw [skipMember_of_some hgroup, htake, setGroup_setGroup] at hstep
  obtain ⟨e, r', hfold, -, hkept⟩ := foldl_admitMember_of_refused (s := s) (x := x) (dir := dir) (org := org) (g := g) (l := l)
    (m := ⟨setGroup g (some (e₀.judged c (.skipped r))) { s with serial := nextSerial s.serial }, some r, false⟩)
    (fun d hd => ⟨⟨rfl, rfl, rfl, rfl, rfl, rfl, rfl, rfl⟩, hl d (List.mem_cons_of_mem _ hd)⟩) (group_setGroup_self ..)
  have hall : (c :: l).foldl (admitMember g x dir org) ⟨takeEntry g x dir org (c :: l) s, none, false⟩ = _ :=
    (congrArg (l.foldl (admitMember g x dir org)) (by rw [htake]; exact hstep)).trans hfold
  unfold admitMembers
  rw [hall, hkept r rfl]
  rfl

end

end Sys2Proof.Machine
end

section
/-! The group table through an installation, and GROUP MOVE with one member (R137 to R141). -/

namespace Sys2Proof.Machine

/-! ## The group table through an installation (R140) -/

section
variable {s u v w : State} {c : Chan} {g h : Fin 4} {e e' : GroupEntry} {n : Order} {r : RevEnd}

theorem groups_driveOff (c : Chan) (u : State) : (driveOff c u).groups = u.groups := by
  unfold driveOff
  split <;> rfl

theorem groups_joinStartQueue (c : Chan) (u : State) : (joinStartQueue c u).groups = u.groups := by
  obtain ⟨-, -, -, -, -, hgroups, -⟩ := joinStartQueue_spec c u
  exact hgroups

theorem groups_postAt (k : EventKind) (c : Chan) (x : Int) (d : Word) (u : State) : (postAt k c x d u).groups = u.groups := by
  simp [postAt]

theorem groups_holdOrder (hm : n.mover = .group g) (hg : u.group g = some e) :
    (holdOrder c n u).groups = (setGroup g (some (e.judged c .live)) u).groups := by
  have hg' : (updMoc c (fun k => { k with order := some n }) u).group g = some e := hg
  simp only [holdOrder, hm, hg']
  rfl

theorem groups_replaceOrder (hm : n.mover = .group g) (hg : u.group g = some e)
    (hh : ∀ held, (u.ch c).moc.order = some held → held.mover = .client) :
    (replaceOrder c n u).groups = (setGroup g (some (e.judged c .live)) u).groups := by
  cases ho : (u.ch c).moc.order with
  | none =>
    simp only [replaceOrder, ho]
    exact groups_holdOrder hm hg
  | some held =>
    have hclient := hh held ho
    obtain ⟨w, hw⟩ : ∃ w, w = postAt .moveEnded c (u.ch c).hif.pos (natWord (orderEndCode .replaced)) (noteEnd c held.ownOpen false u) :=
      ⟨_, rfl⟩
    have hgroups : w.groups = u.groups := by rw [hw, groups_postAt, groups_noteEnd]
    have heq : replaceOrder c n u = holdOrder c n w := by
      simp only [replaceOrder, ho]
      rw [← hw]
      simp only [reportGroup, hclient, reportLearning]
    rw [heq, groups_holdOrder hm ((group_congr hgroups g).trans hg), setGroup, setGroup, hgroups]

/-- R78: the installation of a member's order that no reversal and no FAULT meets, and no target. -/
theorem groups_installBasic (hm : n.mover = .group g) (hg : u.group g = some e)
    (hh : ∀ held, (u.ch c).moc.order = some held → held.mover = .client) (hrev : ¬ (u.ch c).reversal)
    (hf : (u.ch c).moc.motion ≠ .fault) (ht : (u.ch c).moc.motion = .idle → atTarget n.dir n.target (u.ch c).hif.pos = false) :
    (installBasic c n u).groups = (setGroup g (some (e.judged c .live)) u).groups := by
  have hrep := groups_replaceOrder (c := c) hm hg hh
  cases hk : (u.ch c).moc.motion with
  | idle =>
    rw [installBasic_of_idle hk (ht hk)]
    exact (groups_joinStartQueue c (holdOrder c n u)).trans (groups_holdOrder hm hg)
  | queued =>
    by_cases hd : u.opens c = decide (n.dir = .opening)
    · rw [installBasic_of_queued_same hk hd]
      exact hrep
    · rw [installBasic_of_queued_other hk hd]
      exact (groups_joinStartQueue c (replaceOrder c n u)).trans hrep
  | brakingOrder =>
    rw [installBasic_of_braking hk]
    exact hrep
  | closing =>
    cases hd : n.dir with
    | closing =>
      rw [installBasic_of_drive_same (.inl ⟨hk, hd⟩)]
      exact hrep
    | opening =>
      rw [installBasic_of_drive_other (.inl ⟨hk, hd⟩)]
      exact (groups_driveOff c (replaceOrder c n u)).trans hrep
  | opening =>
    cases hd : n.dir with
    | opening =>
      rw [installBasic_of_drive_same (.inr ⟨hk, hd⟩)]
      exact hrep
    | closing =>
      rw [installBasic_of_drive_other (.inr ⟨hk, hd⟩)]
      exact (groups_driveOff c (replaceOrder c n u)).trans hrep
  | brakingPinch => exact absurd (.inl hk) hrev
  | reversing => exact absurd (.inr hk) hrev
  | waiting =>
    rw [installBasic_of_waiting hk]
    exact hrep
  | fault => exact absurd hk hf

/-- In `v` entry `g` is `e`; the entries that `c` is no live member of are as in `s`. -/
structure Standing (g : Fin 4) (c : Chan) (s v : State) (e : GroupEntry) : Prop where
  held : v.group g = some e
  others : ∀ h, h ≠ g → (∀ e', s.group h = some e' → e'.members[c] ≠ some .live) → v.group h = s.group h

theorem Standing.of_groups (hv : v.groups = (setGroup g (some e) u).groups) : Standing g c u v e :=
  ⟨(group_congr hv g).trans (group_setGroup_self ..), fun h hne _ =>
    (group_congr hv h).trans (by rw [group_setGroup, if_neg (Ne.symm hne)])⟩

theorem Standing.congr (hs : Standing g c s v e) (hw : w.groups = v.groups) : Standing g c s w e :=
  ⟨(group_congr hw g).trans hs.held, fun h hne hl => (group_congr hw h).trans (hs.others h hne hl)⟩

theorem Standing.set (hs : Standing g c s v e) (e' : GroupEntry) : Standing g c s (setGroup g (some e') v) e' :=
  ⟨group_setGroup_self .., fun h hne hl => by rw [group_setGroup, if_neg (Ne.symm hne), hs.others h hne hl]⟩

theorem group_reportGroupReversal (hl : ∀ e, u.group h = some e → e.members[c] ≠ some .live) :
    (reportGroupReversal c r u).group h = u.group h := by
  unfold reportGroupReversal
  generalize ([0, 1, 2, 3] : List (Fin 4)) = l
  induction l generalizing u with
  | nil => rfl
  | cons g l ih =>
    have hstep : (recordMember g c (memberRevEnd r) u).group h = u.group h := by
      by_cases hgh : g = h
      · subst hgh
        rw [recordMember_of_not_live hl]
      · exact group_recordMember_ne hgh
    exact (ih (by rw [hstep]; exact hl)).trans hstep

/-- R95: the installation of a member's order that meets a reversal. -/
theorem standing_installBasic_reversal (hm : n.mover = .group g) (hg : u.group g = some e) (hl : e.members[c] ≠ some .live)
    (hrev : (u.ch c).reversal) : Standing g c u (installBasic c n u) (e.judged c .live) := by
  have replaced (m : Motion) : Standing g c u (replaceReversal c n m u) (e.judged c .live) := by
    obtain ⟨v, hv⟩ : ∃ v, v = postAt .reversalEnd c (u.ch c).hif.pos (natWord (revEndCode .replaced))
      (noteEnd c none false (updMoc c (fun k => { k with motion := m, revTarget := none }) u)) := ⟨_, rfl⟩
    have hgroups : v.groups = u.groups := by
      rw [hv, groups_postAt, groups_noteEnd]
      rfl
    have heq : replaceReversal c n m u = holdOrder c n (reportGroupReversal c .replaced v) := by
      rw [hv]
      rfl
    have hstands (h : Fin 4) (hl : ∀ e', u.group h = some e' → e'.members[c] ≠ some .live) :
        (reportGroupReversal c .replaced v).group h = u.group h := by
      rw [group_reportGroupReversal (by rw [group_congr hgroups]; exact hl), group_congr hgroups]
    have hentry : (reportGroupReversal c .replaced v).group g = some e := by
      rw [hstands g fun e' he' => by rw [← Option.some.inj (hg.symm.trans he')]; exact hl, hg]
    rw [heq]
    have hst : Standing g c _ (holdOrder c n (reportGroupReversal c .replaced v)) (e.judged c .live) :=
      .of_groups (groups_holdOrder hm hentry)
    exact ⟨hst.held, fun h hne hl => (hst.others h hne fun e' he' => hl e' ((hstands h hl).symm.trans he')).trans (hstands h hl)⟩
  rcases hrev with hk | hk
  · rw [installBasic_of_pinch hk]
    exact (replaced .brakingOrder).congr (w := noteMoved c (replaceReversal c n .brakingOrder u)) rfl
  · rw [installBasic_of_reversing hk]
    exact (replaced .opening).congr (w := noteMoved c (replaceReversal c n .opening u)) rfl

end

/-! ## The member that passes, among those that are refused (R139) -/

section
variable {s v w : State} {x : Client} {m : BitVec 4} {a : Word} {mask : BitVec 8} {dir : Dir} {org : Origin} {g : Fin 4} {c : Chan}
  {e e' : GroupEntry} {l l' : List Chan} {o : MemberOutcome}

/-- The request at the member that passes: `u` is the state with the entry `e` taken, `l` the members SKIPPED before it, `l'` those
still to be. -/
structure GroupMoving (s : State) (x : Client) (mask : BitVec 8) (dir : Dir) (org : Origin) (c : Chan) (g : Fin 4) (u : State)
    (e : GroupEntry) (l l' : List Chan) : Prop where
  split : s.membersOf mask = l ++ c :: l'
  entry : EntryOf s x dir org (s.membersOf mask) l e
  start : u = setGroup g (some e) { received x s with serial := nextSerial s.serial }
  first : c ∉ l
  later : ∀ d ∈ l', d ≠ c
  refused : ∀ d ∈ l', s.memberRefusal x dir org d ≠ none

/-- R137: the entry once every member was judged, the one that passed having come to `o`. -/
structure EntryWith (s : State) (x : Client) (mask : BitVec 8) (dir : Dir) (org : Origin) (c : Chan) (o : MemberOutcome)
    (e : GroupEntry) : Prop where
  serial : e.serial = nextSerial s.serial
  owner : e.owner = x
  direction : e.dir = dir
  origin : e.origin = org
  member : e.members[c] = some o
  others : ∀ d, d ≠ c → e.members[d] = if inMask mask d = true ∧ (s.ch d).cal.populated = true then
    (s.memberRefusal x dir org d).map MemberOutcome.skipped else none

theorem GroupMoveHeard.moves (h : GroupMoveHeard s x m a mask dir org c) (hg : s.group g = none)
    (hlow : ∀ h : Fin 4, h < g → s.group h ≠ none) (hc : s.memberRefusal x dir org c = none)
    (hothers : ∀ d, d ≠ c → inMask mask d = true → (s.ch d).cal.populated = true → s.memberRefusal x dir org d ≠ none) :
    ∃ u e l l' r, GroupMoving s x mask dir org c g u e l l' ∧
      exec (.groupMove x 15 m a) s = .next (setReply x .accepted (bytesWord g.val (nextSerial s.serial))
        (settle (finishGroup g (l'.foldl (admitMember g x dir org)
          ⟨settle (install c (memberOrder g x dir org s.clock.ms) (u.admitting c dir)), r, true⟩).state))) := by
  obtain ⟨l, l', hsplit⟩ := List.append_of_mem h.member
  have hnodup : (l ++ c :: l').Nodup := hsplit ▸ membersOf_sorted.imp ne_of_lt
  have hmember {d : Chan} (hd : d ∈ l ++ c :: l') (hne : d ≠ c) : s.memberRefusal x dir org d ≠ none := by
    rw [← hsplit, mem_membersOf] at hd
    exact hothers d hne hd.1 hd.2
  have hfirst : c ∉ l := fun hmem => (List.disjoint_of_nodup_append hnodup) hmem (List.mem_cons_self ..)
  have hlater : ∀ d ∈ l', d ≠ c := fun d hd hdc => by
    subst hdc
    exact (List.nodup_cons.mp (List.nodup_append.mp hnodup).2.1).1 hd
  have halike (d : Chan) : (Machine.received x s).memberRefusal x dir org d = s.memberRefusal x dir org d :=
    memberRefusal_congr ⟨rfl, rfl, rfl, rfl, rfl, rfl, rfl, rfl⟩
  obtain ⟨e, r, he, hadmit⟩ := admitMembers_of_one (s := Machine.received x s) (x := x) (dir := dir) (org := org) (g := g)
    (cs := s.membersOf mask) hsplit (by rw [halike]; exact hc) fun d hd => by
      rw [halike]
      exact hmember (List.mem_append_left _ hd) fun hdc => hfirst (hdc ▸ hd)
  refine ⟨_, e, l, l', r, ⟨hsplit, ⟨he.serial, he.owner, he.direction, he.origin, fun d => ?_⟩, rfl, hfirst, hlater, fun d hd =>
    hmember (List.mem_append_right _ (List.mem_cons_of_mem _ hd)) (hlater d hd)⟩, ?_⟩
  · rw [he.members, halike]
  · exact serve_routed_of_body (s := s) (x := x) (body := groupMoveRequest x 15 m a) h.ready
      ((h.received.request_of_free (g := g) (freeEntry_of_lowest hg hlow)).trans hadmit)

namespace GroupMoving
variable {u : State}

theorem of_skips (h : GroupMoving s x mask dir org c g u e l l') (hs : Skips s x dir org l' (e.judged c o) e') :
    EntryWith s x mask dir org c o e' := by
  have hsame := hs.same
  have he := h.entry
  refine ⟨by rw [hsame]; exact he.serial, by rw [hsame]; exact he.owner, by rw [hsame]; exact he.direction,
    by rw [hsame]; exact he.origin, ?_, fun d hd => ?_⟩
  · rw [hs.members, if_neg fun hmem => h.later c hmem rfl, judged_members, if_pos rfl]
  · have hmem : d ∈ s.membersOf mask ↔ d ∈ l ∨ d ∈ l' := by
      rw [h.split]
      simp [hd]
    rw [hs.members, judged_members, if_neg hd, he.members]
    simp only [← mem_membersOf, hmem]
    by_cases h1 : d ∈ l' <;> by_cases h2 : d ∈ l <;> simp [h1, h2]

/-- R139: the members still to be judged are SKIPPED. -/
theorem skip_rest (h : GroupMoving s x mask dir org c g u e l l') (hw : w.group g = some (e.judged c o))
    (hl : ∀ d ∈ l', JudgedAlike s w d) (r : Option Result) : ∃ e', EntryWith s x mask dir org c o e' ∧
      (l'.foldl (admitMember g x dir org) ⟨w, r, true⟩).state = setGroup g (some e') w := by
  obtain ⟨e', r', hfold, hskips, -⟩ := foldl_admitMember_of_refused (s := s) (x := x) (dir := dir) (org := org) (g := g) (l := l')
    (m := ⟨w, r, true⟩) (fun d hd => ⟨hl d hd, h.refused d hd⟩) hw
  exact ⟨e', h.of_skips hskips, by rw [hfold]⟩

/-- R140: with a live member the entry stands. -/
theorem finish_live (h : GroupMoving s x mask dir org c g u e l l') (hw : w.group g = some (e.judged c .live))
    (hl : ∀ d ∈ l', JudgedAlike s w d) (r : Option Result) : ∃ e', EntryWith s x mask dir org c .live e' ∧
      finishGroup g (l'.foldl (admitMember g x dir org) ⟨w, r, true⟩).state = setGroup g (some e') w := by
  obtain ⟨e', he', hfold⟩ := h.skip_rest hw hl r
  have hopen : e'.complete = false := Bool.eq_false_iff.mpr fun hc => (complete_iff.mp hc c).1 he'.member
  exact ⟨e', he', by rw [hfold, finishGroup_of_open (group_setGroup_self ..) hopen]⟩

end GroupMoving

theorem EntryWith.complete (he : EntryWith s x mask dir org c o e) (ho : o.isFinal = true) : e.complete = true :=
  complete_iff.mpr fun d => by
    by_cases hd : d = c
    · subst hd
      rw [he.member]
      constructor <;> (rintro ⟨⟩; cases ho)
    · rw [he.others d hd]
      split
      · cases s.memberRefusal x dir org d <;> simp
      · simp

end

end Sys2Proof.Machine
end

section
/-! GROUP MOVE by the motion of the member that passes (R139 to R141). Settles O49. -/

namespace Sys2Proof.Machine

/-! ## The state after the request -/

section
variable {s u v w : State} {x : Client} {mask : BitVec 8} {dir : Dir} {org : Origin} {g : Fin 4} {c : Chan} {e : GroupEntry}
  {l l' : List Chan} {k : Channel} {q : List Chan} {es : List Event} {held : Order} {r : Option Result}

/-- R139: what a GROUP MOVE leaves that took entry `g`: channel `c` alone changed, and is `k`; the start queue is `q`, the records
`es` were posted; the entries that `c` was no live member of stand. -/
structure GroupMoved (s : State) (x : Client) (c : Chan) (g : Fin 4) (t : State) (k : Channel) (q : List Chan) (es : List Event) :
    Prop where
  replies : Replies x .accepted (bytesWord g.val (nextSerial s.serial)) t
  serial : t.serial = nextSerial s.serial
  self : t.ch c = k
  other : OnlyChannel c s t
  queue : t.startQueue = q
  groups : ∀ h, h ≠ g → (∀ e, s.group h = some e → e.members[c] ≠ some .live) → t.group h = s.group h
  hears : ∀ e w d, ⟨e, some c, w, d, s.clock.ms⟩ ∈ es → es.length ≤ 16 → e ≠ .clientLapse →
    ∀ y, Hears s y e c → Holds t y e (some c) w d
  done : ∀ w d, ⟨.groupDone, none, w, d, s.clock.ms⟩ ∈ es → es.length ≤ 16 →
    ∀ y, (s.link y).mask.getLsbD 12 = true → Holds t y .groupDone none w d

theorem GroupMoving.moved (h : GroupMoving s x mask dir org c g u e l l') (hv : Does c u v k q es)
    (hothers : ∀ h, h ≠ g → (∀ e', u.group h = some e' → e'.members[c] ≠ some .live) → v.group h = u.group h) :
    GroupMoved s x c g (setReply x .accepted (bytesWord g.val (nextSerial s.serial)) v) k q es := by
  have hstart := h.start
  have hgroup (h : Fin 4) (hne : h ≠ g) : u.group h = s.group h := by
    rw [hstart, group_setGroup, if_neg (Ne.symm hne)]
    rfl
  have hclock : u.clock = s.clock := by rw [hstart]; rfl
  have hheard {e : EventKind} {y : Client} (hh : Hears s y e c) : Hears u y e c := by
    rw [hstart]
    exact hh.received (x := x)
  have hmask (y : Client) : (u.link y).mask = (s.link y).mask := by
    rw [hstart]
    exact mask_received ..
  refine ⟨replies_setReply .., ?_, hv.self, fun d hd => ?_, hv.queue, fun h hne hl => ?_, fun e w d hm hlen hk y hh => ?_,
    fun w d hm hlen y hy => ?_⟩
  · obtain ⟨-, -, -, -, -, -, -, hserial, -⟩ := hv.device
    refine hserial.trans ?_
    rw [hstart]
    rfl
  · refine (hv.other d hd).trans ?_
    rw [hstart]
    rfl
  · exact (hothers h hne fun e' he' => hl e' ((hgroup h hne).symm.trans he')).trans (hgroup h hne)
  · rw [← hclock] at hm
    exact holds_setReply (hv.holds hm hlen hk y (hheard hh))
  · rw [← hclock] at hm
    exact holds_setReply (hv.posts.holds_none hv.clock hm hlen (by rw [hmask]; exact hy) (by decide))

theorem GroupMoving.alike (h : GroupMoving s x mask dir org c g u e l l') (hv : Does c u v k q es) : ∀ d ∈ l', JudgedAlike s v d := by
  intro d hd
  have halike := JudgedAlike.of_eq (hv.other d (h.later d hd)) hv.device
  have hstart := h.start
  subst hstart
  exact ⟨halike.auth, halike.moc, halike.level, halike.glob, halike.calLoaded, halike.nvc, halike.sup, halike.clock⟩

theorem GroupMoving.spaced (h : GroupMoving s x mask dir org c g u e l l') : u.spacingElapsed = s.spacingElapsed := by
  rw [h.start]
  rfl

theorem GroupMoving.ch (h : GroupMoving s x mask dir org c g u e l l') (d : Chan) : u.ch d = s.ch d := by
  rw [h.start]
  rfl

theorem GroupMoving.clock (h : GroupMoving s x mask dir org c g u e l l') : u.clock = s.clock := by
  rw [h.start]
  rfl

theorem GroupMoving.queue (h : GroupMoving s x mask dir org c g u e l l') : u.startQueue = s.startQueue := by
  rw [h.start]
  rfl

theorem GroupMoving.group (h : GroupMoving s x mask dir org c g u e l l') : u.group g = some e := by
  rw [h.start]
  exact group_setGroup_self ..

/-- R139: what `runs` asks of the entry of a running member, with the reply. -/
theorem GroupMoving.runs (h : GroupMoving s x mask dir org c g u e l l') (hv : Does c u v k q es)
    (hst : Standing g c u v (e.judged c .live)) (hs : s.spacingElapsed = false) (hk : k.moc.motion ≠ .waiting)
    (hw : ∀ d, d ≠ c → (s.ch d).moc.motion ≠ .waiting) (r : Option Result) :
    ∃ t, setReply x .accepted (bytesWord g.val (nextSerial s.serial)) (settle (finishGroup g (l'.foldl (admitMember g x dir org)
        ⟨settle v, r, true⟩).state)) = t ∧ GroupMoved s x c g t k q es ∧
      ∃ e', t.group g = some e' ∧ EntryWith s x mask dir org c .live e' := by
  have hwaits (d : Chan) (hd : d ≠ c) : (u.ch d).moc.motion ≠ .waiting := by rw [h.ch]; exact hw d hd
  have hset := hv.settle_spaced (h.spaced.trans hs) hk hwaits
  have hsettled := settle_of_gated (.inl (hv.spacingElapsed.trans (h.spaced.trans hs))) (hv.not_waiting hk hwaits)
  have hst' : Standing g c u (settle v) (e.judged c .live) := hst.congr (by rw [hsettled])
  have hnil : (settle v).agenda = [] := by rw [hsettled]
  generalize settle v = w at hset hst' hnil
  obtain ⟨e', he', hfinish⟩ := h.finish_live hst'.held (h.alike hset) r
  rw [hfinish, settle_of_nil (s := setGroup g (some e') w) hnil]
  exact ⟨_, rfl, h.moved (hset.setGroup_some hst'.held e') (hst'.set e').others, e', group_setGroup_self .., he'⟩

/-! ## Installing the member's order -/

theorem EntryOf.to_judge (h : GroupMoving s x mask dir org c g u e l l') : e.members[c] = some .toJudge := by
  rw [h.entry.members, if_neg h.first, if_pos (by rw [h.split]; simp)]

theorem groups_admitting (d : Dir) : (u.admitting c d).groups = u.groups := by
  unfold State.admitting
  split <;> rfl

/-- R130: the channel at the installation. -/
theorem GroupMoving.admitted (h : GroupMoving s x mask dir org c g u e l l') :
    Does c u (u.admitting c dir) ((s.ch c).admitting dir) s.startQueue [] := by
  have hadmit := (Does.refl c u).admitting dir
  rwa [h.ch, h.queue] at hadmit

/-- R79: the order as installed. -/
theorem GroupMoving.normalized (h : GroupMoving s x mask dir org c g u e l l') :
    (u.admitting c dir).normalized c (memberOrder g x dir org s.clock.ms) =
      ⟨dir, .auto, normalizeTarget (s.ch c).cal (s.ch c).level dir .notLearning .toEnd, org, .group g, x, .notLearning, 0, none,
        s.clock.ms⟩ := by
  rw [h.admitted.normalized (by rw [h.ch]; exact sameButAuth_admitting ..)]
  simp only [State.normalized, h.ch, memberOrder]

/-- R140: the entry once the order is installed. -/
theorem GroupMoving.standing (h : GroupMoving s x mask dir org c g u e l l')
    (hinst : install c (memberOrder g x dir org s.clock.ms) (u.admitting c dir) =
        installBasic c ((u.admitting c dir).normalized c (memberOrder g x dir org s.clock.ms)) (u.admitting c dir) ∨
      install c (memberOrder g x dir org s.clock.ms) (u.admitting c dir) = joinStartQueue c
        (installBasic c ((u.admitting c dir).normalized c (memberOrder g x dir org s.clock.ms)) (u.admitting c dir)))
    (hh : ∀ held, (s.ch c).moc.order = some held → held.mover = .client) (hf : (s.ch c).moc.motion ≠ .fault)
    (ht : (s.ch c).moc.motion = .idle → atTarget dir (normalizeTarget (s.ch c).cal (s.ch c).level dir .notLearning .toEnd)
      (s.ch c).hif.pos = false) :
    Standing g c u (install c (memberOrder g x dir org s.clock.ms) (u.admitting c dir)) (e.judged c .live) := by
  have hsame := sameButAuth_admitting dir (s.ch c)
  have hself := h.admitted.self
  have hentry : (u.admitting c dir).group g = some e := (group_congr (groups_admitting dir) g).trans h.group
  have hbasic : Standing g c (u.admitting c dir)
      (installBasic c ((u.admitting c dir).normalized c (memberOrder g x dir org s.clock.ms)) (u.admitting c dir)) (e.judged c .live) := by
    rw [h.normalized]
    by_cases hrev : ((u.admitting c dir).ch c).reversal
    · exact standing_installBasic_reversal rfl hentry (by rw [EntryOf.to_judge h]; decide) hrev
    · exact .of_groups (groups_installBasic rfl hentry (by rw [hself, hsame.moc]; exact hh) hrev (by rw [hself, hsame.moc]; exact hf)
        (by rw [hself, hsame.moc, hsame.hif]; exact ht))
  have hgroups : (install c (memberOrder g x dir org s.clock.ms) (u.admitting c dir)).groups =
      (installBasic c ((u.admitting c dir).normalized c (memberOrder g x dir org s.clock.ms)) (u.admitting c dir)).groups := by
    rcases hinst with hi | hi <;> rw [hi]
    exact groups_joinStartQueue ..
  have hst := hbasic.congr hgroups
  exact ⟨hst.held, fun h' hne hl => (hst.others h' hne fun e' he' => hl e' ((group_congr (groups_admitting dir) h').symm.trans he')).trans
    (group_congr (groups_admitting dir) h')⟩

end

/-! ## A member that is at its target (R79, R101, R141) -/

section
variable {s u v : State} {x : Client} {mask : BitVec 8} {dir : Dir} {org : Origin} {g : Fin 4} {c : Chan} {e e' : GroupEntry}
  {l l' : List Chan} {k : Channel} {q : List Chan} {es : List Event} {n : Order}

theorem atTarget_toEnd {cal : CalRecord} {lvl : Level} {pos : Int}
    (h : atTarget dir (normalizeTarget cal lvl dir .notLearning .toEnd) pos = true) :
    dir = .opening ∧ (softStop cal).map Target.pos = some (normalizeTarget cal lvl dir .notLearning .toEnd) := by
  cases dir with
  | closing => cases lvl <;> cases h
  | opening =>
    refine ⟨rfl, ?_⟩
    cases hstop : softStop cal with
    | none => cases lvl <;> simp [normalizeTarget, hstop, atTarget] at h
    | some stop => cases lvl <;> simp [normalizeTarget, hstop, atTarget] at h ⊢

theorem judged_judged (o o' : MemberOutcome) : (e.judged c o).judged c o' = e.judged c o' := by
  simp [GroupEntry.judged]

/-- R101: the end of a member's order at the soft stop, up to the entry that is then complete or not. -/
theorem endTarget_of_member (h : Does c s u k q es) (ho : k.moc.order = some n) (hm : n.mover = .group g)
    (ht : n.dir = .opening ∧ (softStop k.cal).map Target.pos = some n.target) (hg : u.group g = some (e.judged c .live))
    (he : e.dir = .opening) :
    ∃ v, Does c s v (k.stopped s.clock.now .idle) (q.filter (· ≠ c)) (es ++
        [⟨.endReached, some c, signedWord k.hif.pos, 1, s.clock.ms⟩, endRecord c k.hif.pos .target s.clock.ms]) ∧
      Standing g c u v (e.judged c .reached) ∧ endTarget c u = finishGroup g v := by
  obtain ⟨v, hv, hgroups, heq⟩ := endOrderWith_before_of_member h ho hm .target .idle
    (before := postAt .endReached c k.hif.pos 1) (fun _ => groups_postAt ..) fun hv => hv.postAt .endReached k.hif.pos 1 (by decide)
  have hvg : v.group g = some (e.judged c .live) := (group_congr hgroups g).trans hg
  have hst : Standing g c u v (e.judged c .live) := ⟨hvg, fun h' _ _ => group_congr hgroups h'⟩
  have hdir : (e.judged c .live).dir = .opening := he
  refine ⟨setGroup g (some (e.judged c .reached)) v, ?_, hst.set _, ?_⟩
  · rw [List.append_assoc] at hv
    exact hv.setGroup_some hvg _
  · have hend : endTarget c u = endOrderWith c .target .idle (postAt .endReached c k.hif.pos 1) id u := by
      unfold endTarget
      rw [h.self, ho]
      exact if_pos ht
    rw [hend, heq, reportGroup_of_member hm hvg (by decide), hdir, memberEnd, recordMember_of_live hvg (by rw [judged_members, if_pos rfl]),
      judged_judged]

/-- R141: the mask of GROUP_DONE. -/
theorem EntryWith.missed (he : EntryWith s x mask dir org c .reached e)
    (hothers : ∀ d, d ≠ c → inMask mask d = true → (s.ch d).cal.populated = true → s.memberRefusal x dir org d ≠ none) :
    e.missed = maskWhere fun d : Chan => decide (d ≠ c ∧ inMask mask d = true ∧ (s.ch d).cal.populated = true) := by
  rw [missed_eq]
  refine congrArg maskWhere (funext fun d => decide_eq_decide.mpr ?_)
  by_cases hd : d = c
  · subst hd
    simp [he.member]
  · rw [he.others d hd]
    by_cases hin : inMask mask d = true ∧ (s.ch d).cal.populated = true
    · obtain ⟨r, hr⟩ := Option.ne_none_iff_exists'.mp (hothers d hd hin.1 hin.2)
      simp [hin, hr, hd]
    · simp [hin]

/-- R141: with every member judged, and none live, the entry is freed with GROUP_DONE. -/
theorem GroupMoving.reached (h : GroupMoving s x mask dir org c g u e l l') (hv : Does c u v k q es)
    (hst : Standing g c u v (e.judged c .reached)) (hs : s.spacingElapsed = false) (hk : k.moc.motion ≠ .waiting)
    (hw : ∀ d, d ≠ c → (s.ch d).moc.motion ≠ .waiting)
    (hothers : ∀ d, d ≠ c → inMask mask d = true → (s.ch d).cal.populated = true → s.memberRefusal x dir org d ≠ none)
    (r : Option Result) :
    ∃ t, setReply x .accepted (bytesWord g.val (nextSerial s.serial)) (settle (finishGroup g (l'.foldl (admitMember g x dir org)
        ⟨settle (noteMoved c (finishGroup g v)), r, true⟩).state)) = t ∧ GroupMoved s x c g t k q (es ++ [⟨.groupDone, none,
          maskWord (maskWhere fun d : Chan => decide (d ≠ c ∧ inMask mask d = true ∧ (s.ch d).cal.populated = true)),
          bytesWord g.val (nextSerial s.serial), s.clock.ms⟩]) ∧ t.group g = none := by
  have hwaits (d : Chan) (hd : d ≠ c) : (u.ch d).moc.motion ≠ .waiting := by rw [h.ch]; exact hw d hd
  have hclock : u.clock.ms = s.clock.ms := by rw [h.clock]
  have hsettle {w : State} {fs : List Event} (hw : Does c u w k q fs) : settle (noteMoved c w) = { noteMoved c w with agenda := [] } :=
    have hmoved := hw.noteMoved c
    settle_of_gated (.inl (hmoved.spacingElapsed.trans (h.spaced.trans hs))) (hmoved.not_waiting hk hwaits)
  cases hcomplete : (e.judged c .reached).complete with
  | true =>
    have hnone : l' = [] := List.eq_nil_iff_forall_not_mem.mpr fun d hd => (complete_iff.mp hcomplete d).2 (by
      have hfirst : d ∉ l := fun hl => (List.disjoint_of_nodup_append (h.split ▸ membersOf_sorted.imp ne_of_lt : (l ++ c :: l').Nodup))
        hl (List.mem_cons_of_mem _ hd)
      rw [judged_members, if_neg (h.later d hd), h.entry.members, if_neg hfirst, if_pos (by rw [h.split]; simp [hd])])
    subst hnone
    have he' : EntryWith s x mask dir org c .reached (e.judged c .reached) := h.of_skips ⟨rfl, fun d => by simp⟩
    have hfree := hv.freeEntry hst.held hcomplete
    rw [he'.missed hothers, he'.serial, hclock] at hfree
    have hgone := group_finishGroup_of_complete hst.held hcomplete
    have hstands (h' : Fin 4) (hne : h' ≠ g) := group_finishGroup_ne (u := v) (Ne.symm hne)
    generalize finishGroup g v = w at hfree hgone hstands
    rw [hsettle hfree]
    have hsame : finishGroup g ({ noteMoved c w with agenda := [] } : State) = { noteMoved c w with agenda := [] } := by
      have hgone' : ({ noteMoved c w with agenda := [] } : State).group g = none := hgone
      simp only [finishGroup, hgone']
    rw [List.foldl_nil, hsame, settle_of_nil (s := { noteMoved c w with agenda := [] }) rfl]
    exact ⟨_, rfl, h.moved ((hfree.noteMoved c).agenda []) fun h' hne hl => (hstands h' hne).trans (hst.others h' hne hl), hgone⟩
  | false =>
    rw [finishGroup_of_open hst.held hcomplete, hsettle hv]
    have hset := (hv.noteMoved c).agenda []
    have hst' : Standing g c u ({ noteMoved c v with agenda := [] } : State) (e.judged c .reached) := hst.congr rfl
    have hnil : ({ noteMoved c v with agenda := [] } : State).agenda = [] := rfl
    generalize ({ noteMoved c v with agenda := [] } : State) = w at hset hst' hnil
    obtain ⟨e', he', hfold⟩ := h.skip_rest hst'.held (h.alike hset) r
    rw [hfold]
    have hfinal := hset.setGroup_some hst'.held e'
    have hst'' := hst'.set e'
    have hnil' : (setGroup g (some e') w).agenda = [] := hnil
    generalize setGroup g (some e') w = z at hfinal hst'' hnil'
    have hdone := he'.complete rfl
    have hfree := hfinal.freeEntry hst''.held hdone
    rw [he'.missed hothers, he'.serial, hclock] at hfree
    have hagenda : (finishGroup g z).agenda = [] := by
      unfold finishGroup
      rw [hst''.held]
      simpa [hdone] using hnil'
    rw [settle_of_nil hagenda]
    exact ⟨_, rfl, h.moved hfree fun h' hne hl => (group_finishGroup_ne (Ne.symm hne)).trans (hst''.others h' hne hl),
      group_finishGroup_of_complete hst''.held hdone⟩

end

end Sys2Proof.Machine
end

section
/-! GROUP MOVE with one member that passes, settled. Settles O49. -/

namespace Sys2Proof.Machine

section
variable {s u v w : State} {x : Client} {m : BitVec 4} {a : Word} {mask : BitVec 8} {dir : Dir} {org : Origin} {g : Fin 4} {c : Chan}
  {e : GroupEntry} {l l' : List Chan} {k : Channel} {q : List Chan} {es : List Event} {held : Order}

/-! ## A close on an IDLE, LEARNED channel (R139, first part) -/

/-- The other members are outside the requester's panel mask, or under a claim. -/
theorem memberRefusal_of_barred {d : Chan} (h : s.mayAct x d = false ∨ (s.lockedOut x d = false ∧ (s.ch d).auth.claims ≠ 0)) :
    s.memberRefusal x dir org d = some (if s.mayAct x d then .claimed else .notPermitted) := by
  unfold State.memberRefusal State.refusal
  cases hmay : s.mayAct x d with
  | false => rfl
  | true =>
    obtain ⟨hlock, hclaims⟩ := h.resolve_left (by rw [hmay]; decide)
    rw [hlock, if_pos hclaims]
    rfl

theorem memberRefusal_of_learned (hmay : s.mayAct x c = true) (hlock : s.lockedOut x c = false) (hclaims : (s.ch c).auth.claims = 0)
    (hm : (s.ch c).moc.motion = .idle) (ho : (s.ch c).moc.order = none) (hload : s.calLoaded = true) (herase : s.erasing = false)
    (hlevel : (s.ch c).level = .learned) (hsup : s.sup.state = .normal) : s.memberRefusal x .closing .localReq c = none := by
  simp [State.memberRefusal, State.refusal, hmay, hlock, hclaims, hm, ho, hload, herase, hlevel, levelAllows, hsup, State.busyFor,
    State.inReversal]

/-- R139: the entry, and the other entries, with the member live and `w` what the installation and the grant test came to. -/
theorem GroupMoving.runs_from (h : GroupMoving s x mask dir org c g u e l l') (hw : w.group g = some (e.judged c .live))
    (hl : ∀ d ∈ l', JudgedAlike s w d) (hs : w.serial = u.serial) (hnil : w.agenda = []) (r : Option Result) :
    ∃ t e', setReply x .accepted (bytesWord g.val (nextSerial s.serial)) (settle (finishGroup g (l'.foldl (admitMember g x dir org)
        ⟨w, r, true⟩).state)) = t ∧ Replies x .accepted (bytesWord g.val (nextSerial s.serial)) t ∧
      t.serial = nextSerial s.serial ∧ t.group g = some e' ∧ EntryWith s x mask dir org c .live e' ∧
      (∀ g', g' ≠ g → t.group g' = w.group g') ∧ ∀ d, t.ch d = w.ch d := by
  obtain ⟨e', he', hfinish⟩ := h.finish_live hw hl r
  rw [hfinish, settle_of_nil (s := setGroup g (some e') w) hnil]
  refine ⟨_, e', rfl, replies_setReply .., hs.trans ?_, group_setGroup_self .., he', fun g' hne => ?_, fun d => rfl⟩
  · rw [h.start]
    rfl
  · show (setGroup g (some e') w).group g' = _
    rw [group_setGroup, if_neg (Ne.symm hne)]

/-- What an installation and the grant test come to that the other members and the entry are judged in. -/
structure Installed (s u w : State) (c : Chan) (g : Fin 4) (e : GroupEntry) (n : Order) : Prop where
  entry : w.group g = some (e.judged c .live)
  entries : ∀ g', g' ≠ g → w.group g' = s.group g'
  serial : w.serial = u.serial
  alike : ∀ d, d ≠ c → JudgedAlike s w d
  order : (w.ch c).moc.order = some n
  motion : (w.ch c).moc.motion = .closing ∧ NeighboursBlanked c s w ∨ (w.ch c).moc.motion = .queued ∧ OnlyChannel c s w

theorem GroupMoving.alike_of (h : GroupMoving s x mask dir org c g u e l l') {d : Chan} (ha : JudgedAlike u v d) : JudgedAlike s v d := by
  have hstart := h.start
  subst hstart
  exact ⟨ha.auth, ha.moc, ha.level, ha.glob, ha.calLoaded, ha.nvc, ha.sup, ha.clock⟩

/-- R106, R109, R110: the close of an IDLE channel is driven at once or waits in the queue. -/
theorem GroupMoving.idle_close (h : GroupMoving s x mask .closing .localReq c g u e l l') (hcalm : s.calm)
    (hm : (s.ch c).moc.motion = .idle) (ho : (s.ch c).moc.order = none) (hlevel : (s.ch c).level = .learned) (hl : s.leadersOf c = []) :
    Installed s u (settle (install c (memberOrder g x .closing .localReq s.clock.ms) (u.admitting c .closing))) c g e
      ⟨.closing, .auto, .toEnd, .localReq, .group g, x, .notLearning, 0, none, s.clock.ms⟩ := by
  have hadmit : u.admitting c .closing = u := if_neg (by decide)
  have hnorm := h.normalized
  have hv := Does.refl c u
  rw [hadmit] at hnorm ⊢
  rw [h.ch, h.queue, hcalm.2.1] at hv
  simp only [hlevel, normalizeTarget] at hnorm
  have hva : u.agenda = [] := by rw [h.start]; exact hcalm.1
  have hleaders : u.leadersOf c = [] := by rw [h.start]; exact hl
  have hentry := groups_installBasic (u := u) (c := c) (g := g) (e := e)
    (n := ⟨.closing, .auto, .toEnd, .localReq, .group g, x, .notLearning, 0, none, s.clock.ms⟩) rfl h.group
    (by rw [h.ch, ho]; nofun) (by rw [h.ch]; simp [Channel.reversal, hm]) (by rw [h.ch, hm]; decide) fun _ => rfl
  have hbasic : install c (memberOrder g x .closing .localReq s.clock.ms) u = installBasic c _ u :=
    install_of_plain (by rw [h.ch, hm]; decide) (by rw [h.ch, hm]; decide)
  rw [hnorm] at hbasic
  have htarget : ∀ pos, atTarget (memberOrder g x .closing .localReq s.clock.ms).dir
      (u.normalized c (memberOrder g x .closing .localReq s.clock.ms)).target pos = false := by rw [hnorm]; exact fun _ => rfl
  obtain ⟨hw, -⟩ := install_idle_calm (o := memberOrder g x .closing .localReq s.clock.ms) hv hva hm (htarget _) hleaders
  have hentries (w : State) (hg : w.groups = (install c (memberOrder g x .closing .localReq s.clock.ms) u).groups) :
      w.group g = some (e.judged c .live) ∧ ∀ g', g' ≠ g → w.group g' = s.group g' := by
    have hg' := hg.trans ((congrArg State.groups hbasic).trans hentry)
    refine ⟨(group_congr hg' g).trans (group_setGroup_self ..), fun g' hne => (group_congr hg' g').trans ?_⟩
    rw [group_setGroup, if_neg (Ne.symm hne), h.start, group_setGroup, if_neg (Ne.symm hne)]
    rfl
  by_cases hfree : s.spacingElapsed = false ∨ u.glob.ns ≤ u.slotCount ∨ (s.ch c).moc.brakeRunning = true
  · have hsettled := settle_install_idle_queued (o := memberOrder g x .closing .localReq s.clock.ms) hv hva hm (htarget _) hleaders
      (by rw [h.ch]) (hfree.imp_left h.spaced.trans)
    have hset := hw.agenda []
    obtain ⟨h1, h2⟩ := hentries (settle (install c (memberOrder g x .closing .localReq s.clock.ms) u)) (by rw [hsettled])
    rw [← hsettled] at hset
    generalize settle (install c (memberOrder g x .closing .localReq s.clock.ms) u) = w at hset h1 h2 ⊢
    obtain ⟨-, -, -, -, -, -, -, hserial, -⟩ := hset.device
    refine ⟨h1, h2, hserial, fun d hd => h.alike_of (.of_eq (hset.other d hd) hset.device), by rw [hset.self, hnorm]; rfl,
      .inr ⟨by rw [hset.self]; rfl, fun d hd => (hset.other d hd).trans (h.ch d)⟩⟩
  · push Not at hfree
    obtain ⟨hs, hslots, hb⟩ := hfree
    obtain ⟨-, hdrive⟩ := settle_install_idle (o := memberOrder g x .closing .localReq s.clock.ms) hv hva hm (htarget _)
      (by simpa using hb) nofun hleaders hslots (by rw [h.ch]) (by rw [h.ch]) (h.spaced.trans (by simpa using hs))
    obtain ⟨h1, h2⟩ := hentries (settle (install c (memberOrder g x .closing .localReq s.clock.ms) u)) (by rw [hdrive.frame])
    rw [hnorm] at hdrive
    generalize install c (memberOrder g x .closing .localReq s.clock.ms) u = w at hw hdrive h1 h2 ⊢
    generalize settle w = t at hdrive h1 h2 ⊢
    have hframe := hdrive.frame
    have hblanked (d : Chan) (hd : d ≠ c) : t.ch d = (u.ch d).blanked := by rw [hdrive.blanked d hd, hw.other d hd]
    obtain ⟨d1, -, d3, -, d5, d6, -, hserial, -, -, d11, -⟩ := hw.device
    refine ⟨h1, h2, by rw [hframe]; exact hserial, fun d hd => h.alike_of ⟨by rw [hblanked d hd]; rfl, by rw [hblanked d hd]; rfl,
      by rw [hblanked d hd]; rfl, by rw [hframe]; exact d5, by rw [hframe]; exact d6, by rw [hframe]; exact d11,
      by rw [hframe]; exact d3, by rw [hframe]; exact d1⟩, by rw [hdrive.self]; rfl, .inl ⟨by rw [hdrive.self]; rfl, fun d hd => ?_⟩⟩
    rw [hblanked d hd, h.ch]

/-! ## A member whose order is replaced (R78) -/

theorem Standing.of_start {u' : State} (hs : Standing g c u' v e) (h : ∀ h, h ≠ g → u'.group h = u.group h) : Standing g c u v e :=
  ⟨hs.held, fun h' hne hl => (hs.others h' hne fun e' he' => hl e' ((h h' hne).symm.trans he')).trans (h h' hne)⟩

theorem GroupMoving.replaces {j : Channel} (h : GroupMoving s x mask dir org c g u e l l')
    (hrep : Does.Replacing c u v j k q [] held) (hst : Standing g c u v (e.judged c .live)) (hs : s.spacingElapsed = false)
    (hk : k.moc.motion ≠ .waiting) (hw : ∀ d, d ≠ c → (s.ch d).moc.motion ≠ .waiting) (r : Option Result) :
    ∃ t es, setReply x .accepted (bytesWord g.val (nextSerial s.serial)) (settle (finishGroup g (l'.foldl (admitMember g x dir org)
        ⟨settle v, r, true⟩).state)) = t ∧ GroupMoved s x c g t k q es ∧
      (∃ e', t.group g = some e' ∧ EntryWith s x mask dir org c .live e') ∧
      endRecord c j.hif.pos .replaced s.clock.ms ∈ es ∧ es.length ≤ 16 := by
  obtain ⟨gs, hgs, -, hv⟩ := hrep
  have hlen := hv.length_dones hgs
  have hrep := length_endReports (c := c) (x := j.hif.pos) (o := held) (l := j.learning) (e := .replaced) (ms := u.clock.ms)
  obtain ⟨t, ht, hmoved, hentry⟩ := h.runs hv hst hs hk hw r
  refine ⟨t, _, ht, hmoved, hentry, ?_, ?_⟩
  · rw [h.clock]
    simp
  · simp only [List.length_append, List.length_singleton, List.length_nil]
    omega

/-- R79, R101: on an IDLE channel at the soft stop. -/
theorem GroupMoving.idle_at_target {j : Channel} {n : Order} (h : GroupMoving s x mask dir org c g u e l l')
    (hv : Does c u v j [] []) (hgv : ∀ h', v.group h' = u.group h') (hm : j.moc.motion = .idle) (hmover : n.mover = .group g)
    (hphase : n.phase ≠ .refOpening) (hdir : n.dir = dir) (hopen : dir = .opening)
    (ht : (softStop j.cal).map Target.pos = some n.target) (hat : atTarget n.dir n.target j.hif.pos = true) :
    ∃ w, installBasic c n v = noteMoved c (finishGroup g w) ∧ Standing g c u w (e.judged c .reached) ∧
      Does c u w ((j.ordered n).stopped s.clock.now .idle) [] [⟨.endReached, some c, signedWord j.hif.pos, 1, s.clock.ms⟩,
        endRecord c j.hif.pos .target s.clock.ms] := by
  have hgroups := groups_holdOrder (u := v) (c := c) (n := n) (g := g) (e := e) hmover ((hgv g).trans h.group)
  obtain ⟨w, hw, hst, hend⟩ := endTarget_of_member (g := g) (e := e) (hv.holdOrder n) (n := n) rfl hmover ⟨hdir.trans hopen, ht⟩
    ((group_congr hgroups g).trans (group_setGroup_self ..)) (h.entry.direction.trans hopen)
  refine ⟨w, ?_, hst.of_start fun h' hne => (group_congr hgroups h').trans ?_, ?_⟩
  · rw [installBasic_of_idle_at_target (by rw [hv.self]; exact hm) (by rw [hv.self]; exact hat), if_neg hphase, hend]
  · rw [group_setGroup, if_neg (Ne.symm hne), hgv]
  · rw [h.clock] at hw
    exact hw

/-! ## The refusals (R138, R139) -/

theorem admitted_auth : ((s.ch c).admitting dir).auth = if dir = .opening then
    { (s.ch c).auth with window := none, pinchLevel := 0, overrideLevel := 0 } else (s.ch c).auth := by
  unfold Channel.admitting
  split <;> rfl

theorem not_fault_of_member (h : s.memberRefusal x dir org c = none) : (s.ch c).moc.motion ≠ .fault := by
  unfold State.memberRefusal at h
  split at h
  · cases h
  · exact not_fault_of_admitted h

end

/-- R138, R139: the requests that are refused. -/
theorem groupMove_refused {s : State} {x : Client} {m : BitVec 4} {a : Word} {mask : BitVec 8} {dir : Dir} {org : Origin} {c : Chan}
    (hagenda : s.agenda = []) (h : GroupMoveHeard s x m a mask dir org c) :
    ((∀ g, s.group g ≠ none) → exec (.groupMove x 15 m a) s = .next (setReply x .busy 0 (received x s))) ∧
    ∀ (r : Result) (g : Fin 4), s.group g = none →
      (∀ d, d < c → inMask mask d = true → (s.ch d).cal.populated = false) → s.memberRefusal x dir org c = some r →
      (∀ d, inMask mask d = true → (s.ch d).cal.populated = true → s.memberRefusal x dir org d ≠ none) →
      exec (.groupMove x 15 m a) s = .next (setReply x r 0 (received x s)) := by
  have halike (d : Chan) : (received x s).memberRefusal x dir org d = s.memberRefusal x dir org d :=
    memberRefusal_congr ⟨rfl, rfl, rfl, rfl, rfl, rfl, rfl, rfl⟩
  have hsettle (r : Result) (heq : groupMoveRequest x 15 m a (received x s) = refuse r (received x s)) :
      exec (.groupMove x 15 m a) s = .next (setReply x r 0 (received x s)) := by
    have hserve := serve_routed_of_body (s := s) (x := x) (body := groupMoveRequest x 15 m a) h.ready heq
    rwa [settle_of_nil (s := received x s) hagenda] at hserve
  refine ⟨fun hfull => hsettle _ (h.received.request_of_full (freeEntry_of_full hfull)), fun r g hg hlow hr hall => ?_⟩
  obtain ⟨g', hg'⟩ : ∃ g', (received x s).freeEntry = some g' := by
    refine Option.isSome_iff_exists.mp (List.find?_isSome.mpr ⟨g, by fin_cases g <;> simp, ?_⟩)
    have hnone : (received x s).group g = none := hg
    simp [hnone]
  have hhead : (s.membersOf mask).head? = some c := by
    obtain ⟨l, l', hsplit⟩ := List.append_of_mem h.member
    have hsorted := membersOf_sorted (s := s) (mask := mask)
    rw [hsplit] at hsorted
    cases l with
    | nil => rw [hsplit]; rfl
    | cons d l =>
      have hlt : d < c := (List.pairwise_append.mp hsorted).2.2 d (List.mem_cons_self ..) c (List.mem_cons_self ..)
      obtain ⟨hin, hpop⟩ := mem_membersOf.mp (hsplit ▸ List.mem_append_left _ (List.mem_cons_self ..) : d ∈ s.membersOf mask)
      rw [hlow d hlt hin] at hpop
      cases hpop
  refine hsettle r ((h.received.request_of_free hg').trans (admitMembers_of_none (c := c) hhead (by rw [halike]; exact hr) fun d hd => ?_))
  obtain ⟨hin, hpop⟩ := mem_membersOf.mp hd
  rw [halike]
  exact hall d hin hpop

/-- R137, R139: the first part of O49. -/
theorem groupMove_idle_close {s : State} {x : Client} {a : Word} {mask : BitVec 8} {c : Chan} {g : Fin 4} (hcalm : s.calm)
    (hr : s.ready = true) (hload : s.calLoaded = true) (herase : s.erasing = false) (ha : panelMask a = some mask)
    (hin : inMask mask c = true)
    (hothers : ∀ d, d ≠ c → inMask mask d = true → (s.ch d).cal.populated = true →
      s.mayAct x d = false ∨ (s.lockedOut x d = false ∧ (s.ch d).auth.claims ≠ 0))
    (hpop : (s.ch c).cal.populated = true) (hmay : s.mayAct x c = true) (hright : s.hasRight x .group = true) (hg : s.group g = none)
    (hlow : ∀ h : Fin 4, h < g → s.group h ≠ none) (hlock : s.lockedOut x c = false) (hclaims : (s.ch c).auth.claims = 0)
    (hm : (s.ch c).moc.motion = .idle) (ho : (s.ch c).moc.order = none) (hlevel : (s.ch c).level = .learned)
    (hsup : s.sup.state = .normal) (hl : s.leadersOf c = []) :
    ∃ t e', exec (.groupMove x 15 0 a) s = .next t ∧ Replies x .accepted (bytesWord g.val (nextSerial s.serial)) t ∧
      t.serial = nextSerial s.serial ∧ t.group g = some e' ∧ EntryWith s x mask .closing .localReq c .live e' ∧
      (∀ g', g' ≠ g → t.group g' = s.group g') ∧
      (t.ch c).moc.order = some ⟨.closing, .auto, .toEnd, .localReq, .group g, x, .notLearning, 0, none, s.clock.ms⟩ ∧
      ((t.ch c).moc.motion = .closing ∧ NeighboursBlanked c s t ∨ (t.ch c).moc.motion = .queued ∧ OnlyChannel c s t) := by
  have hheard : GroupMoveHeard s x 0 a mask .closing .localReq c :=
    ⟨hr, hload, herase, by decide, ha, hright, mem_membersOf.mpr ⟨hin, hpop⟩⟩
  obtain ⟨u, e, l, l', r, h, hexec⟩ := hheard.moves hg hlow
    (memberRefusal_of_learned hmay hlock hclaims hm ho hload herase hlevel hsup) fun d hd hin hpop => by
      rw [memberRefusal_of_barred (hothers d hd hin hpop)]
      nofun
  have hinst := h.idle_close hcalm hm ho hlevel hl
  have hnil := settle_agenda (install c (memberOrder g x .closing .localReq s.clock.ms) (u.admitting c .closing))
  generalize settle (install c (memberOrder g x .closing .localReq s.clock.ms) (u.admitting c .closing)) = w at hinst hnil hexec
  obtain ⟨t, e', ht, h1, h2, h3, h4, h5, h6⟩ := h.runs_from hinst.entry (fun d hd => hinst.alike d (h.later d hd)) hinst.serial hnil r
  rw [ht] at hexec
  refine ⟨t, e', hexec, h1, h2, h3, h4, fun g' hne => (h5 g' hne).trans (hinst.entries g' hne), by rw [h6]; exact hinst.order, ?_⟩
  rw [h6]
  exact hinst.motion.imp (And.imp_right fun hb d hd => by rw [h6]; exact hb d hd) (And.imp_right fun hb d hd => by rw [h6]; exact hb d hd)

/-- Settles O49: the member's installation by its motion, the entry followed beside it. -/
theorem groupMoveTakesAnEntry : Obligations.GroupMoveTakesAnEntry := by
  refine ⟨?_, ?_, ?_⟩
  · intro s x a mask c g hcalm hr hload herase ha hin hothers hpop hmay hright hg hlow hlock hclaims hm ho hlevel hsup hl n
    obtain ⟨t, e', hexec, h1, h2, h3, h4, h5, h6, h7⟩ := groupMove_idle_close hcalm hr hload herase ha hin hothers hpop hmay hright hg
      hlow hlock hclaims hm ho hlevel hsup hl
    refine ⟨t, e', hexec, h1, h2, h3, h4.serial, h4.owner, h4.direction, fun d => ?_, h5, h6, h7⟩
    by_cases hd : d = c
    · subst hd
      rw [if_pos rfl, h4.member]
    · rw [h4.others d hd, if_neg hd]
      by_cases hmem : inMask mask d = true ∧ (s.ch d).cal.populated = true
      · rw [if_pos hmem, if_pos hmem, memberRefusal_of_barred (hothers d hd hmem.1 hmem.2)]
        rfl
      · rw [if_neg hmem, if_neg hmem]
  · intro s x m a mask dir org c g hagenda hr hload herase hm ha hright hg hlow hin hpop hpass hothers hc hl hs hw hq hclient old n o
      posted others taken runs
    have hheard : GroupMoveHeard s x m a mask dir org c := ⟨hr, hload, herase, hm, ha, hright, mem_membersOf.mpr ⟨hin, hpop⟩⟩
    obtain ⟨u, e, l, l', r, h, hexec⟩ := hheard.moves hg hlow hpass hothers
    have hfault := not_fault_of_member hpass
    have hadm := h.admitted
    have hnorm := h.normalized
    have hsame := sameButAuth_admitting dir (s.ch c)
    have hauth := admitted_auth (s := s) (c := c) (dir := dir)
    have hstanding := h.standing (dir := dir) (org := org)
    have hleaders : u.leadersOf c = [] := by rw [h.start]; exact hl
    have hdir : (memberOrder g x dir org s.clock.ms).dir = dir := rfl
    have hcal : ((s.ch c).admitting dir).cal.companion = none := by rw [hsame.cal]; exact hc
    change (u.admitting c dir).normalized c _ = o at hnorm
    have hspaced := h.spaced.trans hs
    have hwaits (d : Chan) (hd : d ≠ c) : (u.ch d).moc.motion ≠ .waiting := by rw [h.ch]; exact hw d hd
    have hadmitted (h' : Fin 4) : (u.admitting c dir).group h' = u.group h' := group_congr (groups_admitting dir) h'
    have hjudge := h.entry.direction
    have hugroup := h.group
    generalize (s.ch c).admitting dir = j at hadm hsame hauth hcal
    generalize u.admitting c dir = v at hadm hnorm hexec hstanding hadmitted
    generalize memberOrder g x dir org s.clock.ms = p at hnorm hexec hstanding hdir
    have htaken {t : State} {k : Channel} {q : List Chan} {es : List Event} (ht : GroupMoved s x c g t k q es)
        (hpos : k.hif.pos = j.hif.pos) (hk : k.auth = j.auth) : taken t :=
      ⟨ht.replies, ht.serial, ht.other, by rw [ht.self, hpos, hsame.hif], by rw [ht.self, hk, hauth], ht.groups⟩
    have hruns {t : State} {k : Channel} {q : List Chan} {es : List Event} (ht : GroupMoved s x c g t k q es)
        (he : ∃ e', t.group g = some e' ∧ EntryWith s x mask dir org c .live e') (hpos : k.hif.pos = j.hif.pos)
        (hk : k.auth = j.auth) (ho : k.moc.order = some o) : runs t := by
      obtain ⟨e', hg', he'⟩ := he
      exact ⟨htaken ht hpos hk, by rw [ht.self, ho], e', hg', he'.serial, he'.owner, he'.direction, he'.origin, he'.member, he'.others⟩
    have hended {t : State} {k : Channel} {q : List Chan} {es : List Event} (ht : GroupMoved s x c g t k q es)
        (hin : endRecord c j.hif.pos .replaced s.clock.ms ∈ es) (hlen : es.length ≤ 16) : posted t .moveEnded 5 := by
      rw [hsame.hif] at hin
      exact ht.hears _ _ _ hin hlen (by decide)
    have hmoc : j.moc = old := hsame.moc
    have hself := hadm.self
    have hplain (hw : old.motion ≠ .waiting) (hr : old.motion ≠ .reversing) : install c p v = installBasic c (v.normalized c p) v :=
      install_of_plain (by rw [hself, hmoc]; exact hw) (by rw [hself, hmoc]; exact hr)
    refine ⟨fun hidle hnone => ⟨fun ht => ?_, fun ht => ?_⟩, fun hsome => ?_, fun hnone hrev hopen => ?_⟩
    · rw [hq, if_neg (by rw [show (s.ch c).moc.motion = .idle from hidle]; decide)] at hadm
      have hinst := (hadm.install_idle (o := p) (by rw [hmoc]; exact hidle) (by rw [hnorm, hdir, hsame.hif]; exact ht)).of_queue
        (startQueue_joinStartQueue_calm (c := c) (by rw [(hadm.holdOrder (v.normalized c p)).queue]; exact nofun))
      have hst := hstanding (.inl (hplain (by rw [hidle]; decide) (by rw [hidle]; decide))) hclient hfault fun _ => ht
      obtain ⟨t, ht', hmoved, hentry⟩ := h.runs hinst hst hs nofun hw r
      rw [ht'] at hexec
      exact ⟨t, hexec, hruns hmoved hentry rfl rfl (congrArg some hnorm), by rw [hmoved.self]; rfl, hmoved.queue⟩
    · rw [hq, if_neg (by rw [show (s.ch c).moc.motion = .idle from hidle]; decide)] at hadm
      obtain ⟨hopen, hstop⟩ := atTarget_toEnd ht
      obtain ⟨w, hinst, hst, hv⟩ := h.idle_at_target (n := o) hadm hadmitted (by rw [hmoc]; exact hidle) rfl nofun rfl hopen
        (by rw [hsame.cal]; exact hstop) (by rw [hsame.hif]; exact ht)
      rw [hplain (by rw [hidle]; decide) (by rw [hidle]; decide), hnorm, hinst] at hexec
      obtain ⟨t, ht', hmoved, hgone⟩ := h.reached hv hst hs nofun hw hothers r
      rw [ht'] at hexec
      have hpos : ((j.ordered o).stopped s.clock.now .idle).hif.pos = j.hif.pos := off_pos
      refine ⟨t, hexec, htaken hmoved hpos stopped_auth, hgone, hmoved.queue, by rw [hmoved.self]; rfl,
        by rw [hmoved.self]; rfl, ?_, ?_, hmoved.done _ _ (List.mem_append_right _ (List.mem_singleton_self _)) (by simp)⟩
      · exact hmoved.hears _ _ _ (List.mem_append_left _ (by rw [hsame.hif]; exact List.mem_cons_self ..)) (by simp) (by decide)
      · exact hmoved.hears _ _ _ (List.mem_append_left _ (by
          rw [hsame.hif]
          exact List.mem_cons_of_mem _ (List.mem_singleton_self _))) (by simp) (by decide)
    · obtain ⟨held, ho⟩ := Option.ne_none_iff_exists'.mp hsome
      rw [← hmoc] at ho
      refine ⟨fun hqueued => ?_, fun hkept => ?_, fun hdrive hon => ?_, fun hwait => ?_⟩
      · rw [hq, if_pos (show (s.ch c).moc.motion = .queued from hqueued)] at hadm
        have hst := hstanding (.inl (hplain (by rw [hqueued]; decide) (by rw [hqueued]; decide))) hclient hfault fun hm => by
          rw [show (s.ch c).moc.motion = .queued from hqueued] at hm
          cases hm
        have hmj : j.moc.motion = .queued := by rw [hmoc]; exact hqueued
        by_cases hd : v.opens c = decide (p.dir = .opening)
        · have hrep := hadm.install_kept (o := p) ho (.inl ⟨hmj, hd⟩)
          rw [hnorm] at hrep
          obtain ⟨t, es, ht, hmoved, hentry, hin, hlen⟩ := h.replaces hrep hst hs (by show j.moc.motion ≠ _; rw [hmj]; decide) hw r
          rw [ht] at hexec
          exact ⟨t, hexec, hruns hmoved hentry rfl rfl rfl, hended hmoved hin hlen, by rw [hmoved.self, ← hmoc]; rfl, hmoved.queue⟩
        · have hrep := hadm.install_requeued (o := p) ho hmj hd
          obtain ⟨gs, -, -, hreplaced⟩ := hadm.replacingBy ho (v.normalized c p)
          rw [startQueue_joinStartQueue_calm (by rw [hreplaced.queue]; simp), hnorm] at hrep
          obtain ⟨t, es, ht, hmoved, hentry, hin, hlen⟩ := h.replaces hrep hst hs nofun hw r
          rw [ht] at hexec
          refine ⟨t, hexec, hruns hmoved hentry rfl rfl rfl, hended hmoved hin hlen, ?_, hmoved.queue⟩
          rw [hmoved.self, ← hmoc]
          show ({ j.moc with motion := .queued, order := some o } : Moc) = _
          rw [← hmj]
      · have hkept' := hkept.imp_right fun h => drive_within_order h.1 h.2
        have hne : old.motion ≠ .queued ∧ old.motion ≠ .waiting ∧ old.motion ≠ .reversing ∧ old.motion ≠ .idle := by
          rcases hkept' with h | ⟨h, -⟩ | ⟨h, -⟩ <;> rw [h] <;> decide
        rw [hq, if_neg hne.1] at hadm
        have hst := hstanding (.inl (hplain hne.2.1 hne.2.2.1)) hclient hfault fun hm => absurd hm hne.2.2.2
        rw [← hmoc, ← hdir] at hkept'
        have hrep := hadm.install_kept (o := p) ho (.inr hkept')
        rw [hnorm] at hrep
        obtain ⟨t, es, ht, hmoved, hentry, hin, hlen⟩ := h.replaces hrep hst hs (by show j.moc.motion ≠ _; rw [hmoc]; exact hne.2.1) hw r
        rw [ht] at hexec
        exact ⟨t, hexec, hruns hmoved hentry rfl rfl rfl, hended hmoved hin hlen, by rw [hmoved.self, ← hmoc]; rfl, hmoved.queue⟩
      · have hother := drive_of_other hdrive hon
        have hne : old.motion ≠ .queued ∧ old.motion ≠ .waiting ∧ old.motion ≠ .reversing ∧ old.motion ≠ .idle := by
          rcases hother with ⟨h, -⟩ | ⟨h, -⟩ <;> rw [h] <;> decide
        rw [hq, if_neg hne.1] at hadm
        have hst := hstanding (.inl (hplain hne.2.1 hne.2.2.1)) hclient hfault fun hm => absurd hm hne.2.2.2
        rw [← hmoc, ← hdir] at hother
        have hrep := hadm.install_braked (o := p) ho hother
        rw [hnorm, h.clock] at hrep
        obtain ⟨t, es, ht, hmoved, hentry, hin, hlen⟩ := h.replaces hrep hst hs nofun hw r
        rw [ht] at hexec
        have hoff : (j.replaced held o).off s.clock.now = _ := Channel.off_of_drive (by
          change j.moc.motion.drive ≠ none
          rcases hother with ⟨h, -⟩ | ⟨h, -⟩ <;> rw [h] <;> decide)
        refine ⟨t, hexec, hruns hmoved hentry off_pos off_auth (off_order (k := j.replaced held o)), hended hmoved hin hlen,
          hmoved.queue, ?_⟩
        rw [hmoved.self]
        show { ((j.replaced held o).off s.clock.now).moc with motion := .brakingOrder } = _
        rw [hoff, ← hmoc, ← hsame.cal]
        rfl
      · rw [hq, if_neg (by rw [show (s.ch c).moc.motion = .waiting from hwait]; decide)] at hadm
        have hmj : j.moc.motion = .waiting := by rw [hmoc]; exact hwait
        have hcalj : j.cal = (u.ch c).cal := by rw [h.ch, hsame.cal]
        have hst := hstanding (.inr (hadm.install_waiting_queues ho hmj hcal hleaders hcalj)) hclient hfault fun hm => by
          rw [show (s.ch c).moc.motion = .waiting from hwait] at hm
          cases hm
        have hrep := hadm.install_from_waiting (o := p) ho hmj hcal hleaders hcalj nofun
        rw [hnorm] at hrep
        obtain ⟨t, es, ht, hmoved, hentry, hin, hlen⟩ := h.replaces hrep hst hs nofun hw r
        rw [ht] at hexec
        exact ⟨t, hexec, hruns hmoved hentry rfl rfl rfl, hended hmoved hin hlen, by rw [hmoved.self]; rfl, hmoved.queue,
          by rw [hmoved.self, ← hmoc]; rfl⟩
    · have hrev' : (s.ch c).reversal := inReversal_iff.mp hrev
      have hne : old.motion ≠ .queued ∧ old.motion ≠ .idle := by
        rcases hrev' with h | h <;> rw [show old.motion = _ from h] <;> decide
      rw [hq, if_neg hne.1] at hadm
      have hrevj : j.reversal := by
        unfold Channel.reversal
        rw [hsame.moc]
        exact hrev'
      have hst := hstanding (.inl (hadm.install_reversal_basic hrevj hcal)) hclient hfault fun hm => absurd hm hne.2
      obtain ⟨ds, hds, hinst⟩ := hadm.install_reversal (o := p) hrevj hcal
      rw [hnorm] at hinst
      have hlen := hinst.length_dones' hds
      obtain ⟨t, ht, hmoved, hentry⟩ := h.runs hinst hst hs (by
        show (if j.moc.motion = .reversing then Motion.opening else .brakingOrder) ≠ .waiting
        split <;> decide) hw r
      rw [ht] at hexec
      have hclock : u.clock.ms = s.clock.ms := by rw [h.clock]
      refine ⟨t, hexec, hruns hmoved hentry rfl rfl rfl, ?_, hmoved.queue, by rw [hmoved.self, ← hmoc]; rfl⟩
      refine hmoved.hears _ _ (natWord (revEndCode .replaced)) ?_ (by simp; omega) (by decide)
      rw [hclock, hsame.hif]
      simp [revRecord]
  · intro s x m a mask dir org c hagenda hr hload herase hm ha hright hin hpop
    exact groupMove_refused hagenda ⟨hr, hload, herase, hm, ha, hright, mem_membersOf.mpr ⟨hin, hpop⟩⟩

end Sys2Proof.Machine
end

section
/-! An IDLE channel that holds an order, at the entry into CRANK (R25, R167). Refutes O51. -/

namespace Sys2Proof.Machine

/-- The first order of a LEARN OPEN END run. -/
def strayOrder : Order := learnOrder 0 .openEnd 0

/-- Channel 0 is IDLE and yet holds the order of a run, which the table of section 5.1 excludes and the last clause but one of O51
does not; three supply samples have settled. -/
def idleWithOrder : State :=
  updChan 0 (fun k => { k with
    cal := { k.cal with populated := true }, moc := { k.moc with order := some strayOrder }
    learning := ⟨some .openEnd, some 0, none⟩ })
    { State.reset with ready := true, sup := { State.reset.sup with settling := 3, state := .normal } }

theorem exec_idleWithOrder : exec (.supplySample 0) idleWithOrder =
    .next (settle (evaluateSupply { idleWithOrder with sup := idleWithOrder.sup.sample 0 })) := exec_supplySample (by decide)

/-- R25: the shutdown passes over an IDLE channel, so the order stands. -/
theorem order_idleWithOrder : ((settle (evaluateSupply { idleWithOrder with
    sup := idleWithOrder.sup.sample 0 })).ch 0).moc.order = some strayOrder := by decide

/-- Refutes O51: at the entry into CRANK the shutdown leaves an IDLE channel as it is, so the order that it holds does not end; the
clause on the entry into CRANK asks for no row of the table of section 5.1, and `idleWithOrder` meets its premises. -/
theorem not_learnQueuesItsFirstOrder : ¬ Obligations.LearnQueuesItsFirstOrder := by
  rintro ⟨-, -, hends, -⟩
  have hclauses := hends idleWithOrder 0 strayOrder .openEnd 0 none rfl (by decide) (by decide) rfl rfl (by decide) (by decide) rfl
    rfl rfl
  obtain ⟨-, -, -, -, hsupply, -⟩ := hclauses
  obtain ⟨t, hexec, -, -, hnone, -⟩ := hsupply 0 (by decide) (by decide) (by decide) (by decide)
  rw [exec_idleWithOrder, Host.Outcome.next.injEq] at hexec
  rw [← hexec, order_idleWithOrder] at hnone
  cases hnone

end Sys2Proof.Machine
end

section
/-! The deadlines of an order (R122, R153), and the tests of a companion link at a step: the gate (R146 to R148), the clamp
(R149), and the resumption (R151, R152). -/

namespace Sys2Proof.Machine

section
variable {s u v : State} {c p d : Chan} {k k' : Channel} {q q' : List Chan} {es es' : List Event} {o : Order} {e : OrderEnd}

/-! ## Deadlines (R122, R153) -/

/-- R100: the end of a client's order, when it was alone in the queue and nobody else waits. -/
theorem does_endOrder (hq : s.startQueue = []) (hw : ∀ d, d ≠ c → (s.ch d).moc.motion ≠ .waiting) (ho : (s.ch c).moc.order = some o)
    (hm : o.mover = .client) (he : e ≠ .openEnd) (he' : e ≠ .closedEnd) : Does c s (settle (endOrder c e s))
      ((s.ch c).stopped s.clock.now .idle) [] [endRecord c (s.ch c).hif.pos e s.clock.ms] := by
  have hend := (Does.refl c s).endSingle ho (single_of_client hm) he he' .idle
  have hlearning : (s.ch c).learning = ((s.ch c).stopped s.clock.now .idle).learning := stopped_learning.symm
  rw [endReports_of_client hm, Order.leaves_of_client hm, hq, hlearning] at hend
  exact hend.settle nofun hw

/-- R122, R153: what a deadline leaves. -/
theorem does_endOrder_facts {t : State} (h : Does c s t ((s.ch c).stopped s.clock.now .idle) []
    [endRecord c (s.ch c).hif.pos e s.clock.ms]) : OnlyChannel c s t ∧ SameDevice s t ∧
      (t.ch c).moc.motion = .idle ∧ (t.ch c).moc.order = none ∧ (t.ch c).moc.slot = false ∧
      (t.ch c).moc.wait = none ∧ (t.ch c).hold = .none ∧ (t.ch c).hif.pos = (s.ch c).hif.pos ∧
      (t.ch c).level = (s.ch c).level ∧ (t.ch c).auth = (s.ch c).auth ∧ (t.ch c).cal = (s.ch c).cal ∧
      ∀ y, Hears s y .moveEnded c → Holds t y .moveEnded (some c) (signedWord (s.ch c).hif.pos) (natWord (orderEndCode e)) := by
  refine ⟨h.other, h.device, ?_, ?_, ?_, ?_, ?_, ?_, ?_, ?_, ?_, h.holds_end (List.mem_singleton_self _) (by simp)⟩ <;>
    rw [h.self] <;> simp

theorem exec_refreshDeadline {deadline : Nat} (ho : (s.ch c).moc.order = some o) (hm : o.mode = .manual) (hr : o.refresh = some deadline)
    (hd : deadline ≤ s.clock.now) : exec (.refreshDeadlineExpiry c) s = .next (settle (endOrder c .released s)) := by
  have hdue : due (s.refreshDeadline c) s.clock.now = true := by simp [State.refreshDeadline, ho, hm, hr, due, hd]
  show Host.Outcome.next (settle (if due (s.refreshDeadline c) s.clock.now then endOrder c .released s else s)) = _
  rw [if_pos hdue]

theorem exec_waitDeadline {deadline : Nat} (hm : (s.ch c).moc.motion = .waiting) (hwait : (s.ch c).moc.wait = some deadline)
    (hd : deadline ≤ s.clock.now) : exec (.waitDeadlineExpiry c) s = .next (settle (waitExpired c s)) := by
  have hdue : due (s.waitDeadline c) s.clock.now = true := by simp [State.waitDeadline, hm, hwait, due, hd]
  show Host.Outcome.next (settle (if due (s.waitDeadline c) s.clock.now then waitExpired c s else s)) = _
  rw [if_pos hdue]

/-! ## What is left to be done for those who wait -/

/-- The task has nobody waiting named in it. -/
def Task.unheard : Task → Prop
  | .grantTest => True
  | .followerTest _ => True
  | .orderEnded _ waiters _ _ => waiters = []
  | .moved _ waiters => waiters = []

/-- Nothing left to be done names a waiting leader. -/
def Unheard (s : State) : Prop := ∀ t ∈ s.agenda, t.unheard

theorem unheard_of_nil (h : s.agenda = []) : Unheard s := by
  rw [Unheard, h]
  exact nofun

theorem Unheard.congr (h : Unheard s) (ha : u.agenda = s.agenda) : Unheard u := by rwa [Unheard, ha]

theorem Unheard.push (h : Unheard s) {t : Task} (ht : t.unheard) : Unheard (push t s) := fun x hx => by
  rcases List.mem_append.mp hx with hx | hx
  · exact h x hx
  · rwa [List.mem_singleton.mp hx]

theorem Unheard.notifyFollower (h : Unheard s) (c : Chan) : Unheard (notifyFollower c s) := by
  unfold Machine.notifyFollower
  split
  · exact h.push trivial
  · exact h

theorem Unheard.noteMoved (h : Unheard s) (hw : s.waitersOn c = []) : Unheard (noteMoved c s) := h.push hw

theorem Unheard.releaseSlot (h : Unheard s) (c : Chan) : Unheard (releaseSlot c s) := by
  unfold Machine.releaseSlot
  split
  · exact Unheard.push (h.congr rfl) trivial
  · exact h

theorem Unheard.enterWaiting (h : Unheard s) (c : Chan) (hold : Hold) : Unheard (enterWaiting c hold s) := by
  have hagenda : (driveOff c s).agenda = s.agenda := by rw [(driveOff_spec c s).2.1]
  exact (Unheard.releaseSlot (h.congr hagenda) c).congr rfl

/-- Nobody waits on a channel that only channels that do not wait name. -/
theorem waitersOn_of_free (h : ∀ d, (s.ch d).cal.companion = some c → (s.ch d).moc.motion ≠ .waiting) : s.waitersOn c = [] :=
  List.filter_eq_nil_iff.mpr fun d hd => by
    have hlead : (s.ch d).cal.companion = some c := by simpa using (List.mem_filter.mp hd).2
    simp [h d hlead]

/-- With no slot to grant and every held follower still clamped, such things change nothing. -/
theorem settleN_of_unheard (n : Nat) (h : Unheard s) (hg : s.spacingElapsed = false ∨ s.startQueue = [])
    (hf : ∀ d, (s.ch d).moc.motion = .waiting → (s.ch d).hold = .follower → (s.leadersOf d).any (s.stillClamps d) = true) :
    settleN n s = { s with agenda := [] } := by
  refine settleN_of_inert (fun t ht a => ?_) n
  have hun := h t ht
  cases t with
  | grantTest =>
    rcases hg with hg | hg
    · exact grantTest_of_gated (s := { s with agenda := a }) (.inl hg)
    · exact grantTest_of_empty (s := { s with agenda := a }) hg
  | orderEnded d waiters own ok =>
    rw [show waiters = [] from hun]
    rfl
  | moved d waiters =>
    rw [show waiters = [] from hun]
    rfl
  | followerTest d =>
    refine if_neg fun ⟨hm, hh, hfree⟩ => ?_
    have hclamped : (s.leadersOf d).any (s.stillClamps d) = true := hf d hm hh
    exact Bool.false_ne_true (hfree.symm.trans hclamped)

/-- R151, R152: a single thing left that resumes `p`, with no slot to grant. -/
theorem settle_resumes {t : Task} (ha : s.agenda = [t]) (hrun : runTask t { s with agenda := [] } = resume p { s with agenda := [] })
    (hq : s.startQueue = []) (hs : s.spacingElapsed = false) (hw : ∀ d, d ≠ p → (s.ch d).moc.motion ≠ .waiting) :
    Does p { s with agenda := [] } (settle s) (s.ch p).resumed.queued [p] [] := by
  have hdone := (Does.refl p { s with agenda := [] }).resume
  have hqueue : (resume p { s with agenda := [] }).startQueue = [p] :=
    startQueue_joinStartQueue_calm (u := setHold p .none (updMoc p (fun m => { m with wait := none }) { s with agenda := [] }))
      (show ∀ d ∈ s.startQueue, d = p by rw [hq]; exact nofun)
  have hagenda : (resume p { s with agenda := [] }).agenda = [.grantTest] := rfl
  rw [hqueue] at hdone
  rw [settle_cons ha, hrun]
  generalize resume p { s with agenda := [] } = v at hdone hagenda ⊢
  have hquiet : Unheard v := by
    rw [Unheard, hagenda]
    exact fun x hx => by rw [List.mem_singleton.mp hx]; trivial
  rw [settleN_of_unheard 255 hquiet (.inl (hdone.spacingElapsed.trans hs)) fun d hm _ => ?_]
  · exact hdone.agenda []
  · by_cases hd : d = p
    · subst hd
      rw [hdone.self] at hm
      cases hm
    · rw [hdone.other d hd] at hm
      exact absurd hm (hw d hd)

/-! ## A drive-direction step, up to what it does to the order -/

/-- R5, R12, R51: the state in which a step of direction `d` under drive meets the order. -/
def State.taken (s : State) (c : Chan) (pair : Pair) (d : Dir) : State :=
  countStep c (updHif c (fun _ => s.stepped pair d (s.ch c).hif) s)

/-- The channel in it. -/
def State.takenBy (s : State) (c : Chan) (pair : Pair) (d : Dir) : Channel :=
  ({ s.ch c with hif := s.stepped pair d (s.ch c).hif } : Channel).counted s.clock.now

/-- R151, R152: what GRP is told of a step of direction `d`. -/
def tellStep (c : Chan) (d : Dir) (s : State) : State := notifyFollower c (if d = .opening then noteMoved c s else s)

theorem does_taken (s : State) (c : Chan) (pair : Pair) (d : Dir) :
    Does c s (s.taken c pair d) (s.takenBy c pair d) s.startQueue [] := ((Does.refl c s).updHif _).countStep

theorem agenda_taken (s : State) (c : Chan) (pair : Pair) (d : Dir) : (s.taken c pair d).agenda = s.agenda := rfl

theorem Does.tellStep (h : Does c s u k q es) (d : Dir) : Does c s (tellStep c d u) k q es := by
  unfold Machine.tellStep
  split
  · exact (h.noteMoved c).notifyFollower c
  · exact h.notifyFollower c

theorem Unheard.tellStep (h : Unheard u) (d : Dir) (hw : u.waitersOn c = []) : Unheard (tellStep c d u) := by
  unfold Machine.tellStep
  split
  · exact (h.noteMoved hw).notifyFollower c
  · exact h.notifyFollower c

theorem tellStep_closing : tellStep c .closing u = notifyFollower c u := by simp [Machine.tellStep]
theorem tellStep_opening : tellStep c .opening u = notifyFollower c (noteMoved c u) := by simp [Machine.tellStep]

theorem exec_drive_step {old pair : Pair} {d : Dir} (hpop : (s.ch c).cal.populated = true) (hp : (s.ch c).hif.phase = some old)
    (hd : stepDir old pair = some d) (hlow : -1024 ≤ (s.ch c).hif.pos + stepDelta d)
    (hhigh : (s.ch c).hif.pos + stepDelta d ≤ 5119) (hdrive : (s.ch c).moc.motion.drive = some d) :
    exec (.hallAcceptance c pair) s = .next (settle (tellStep c d (stepOutcome c (s.taken c pair d)))) := by
  rw [exec_accept hpop, accept_drive_step hp hd hlow hhigh hdrive]
  rfl

/-! ## The gate test (R147) -/

theorem gateTest_pass (hm : u.meets p c = true) (hc : u.holdsClose c = false) : gateTest p c o u = (.pass, u) := by
  simp [gateTest, hm, hc]

theorem gateTest_coming (hm : u.meets p c = false) (hc : u.comingOpen p c = true) : gateTest p c o u = (.wait, u) := by
  simp [gateTest, hm, hc]

theorem gateTest_shut (hm : u.meets p c = false) (hc : u.comingOpen p c = false) (ho : u.openable c = false) :
    gateTest p c o u = (.blocked, u) := by
  simp [gateTest, hm, hc, ho]

theorem gateTest_refused (hm : u.meets p c = false) (hc : u.comingOpen p c = false)
    (hr : u.refusal o.client c .opening .auto o.origin ≠ none) : gateTest p c o u = (.blocked, u) := by
  obtain ⟨r, hr⟩ := Option.ne_none_iff_exists'.mp hr
  simp [gateTest, hm, hc, internalOpen, hr]

theorem gateTest_opens (hm : u.meets p c = false) (hc : u.comingOpen p c = false) (ho : u.openable c = true)
    (hr : u.refusal o.client c .opening .auto o.origin = none) :
    gateTest p c o u = afterInternal c (installInternal c (internalOpen p o u.clock.ms) u) := by
  simp [gateTest, hm, hc, ho, internalOpen, hr]

theorem throughGate_pass {f : State → State} (h : gateTest p c o u = (.pass, v)) : throughGate p o f (some c) u = f v := by
  simp only [throughGate, h]

theorem throughGate_wait {f : State → State} (h : gateTest p c o u = (.wait, v)) :
    throughGate p o f (some c) u = enterWaiting p .leader v := by
  simp only [throughGate, h]

theorem throughGate_blocked {f : State → State} (h : gateTest p c o u = (.blocked, v)) :
    throughGate p o f (some c) u = endOrder p .companionBlocked v := by
  simp only [throughGate, h]

theorem meets_iff : u.meets p c = true ↔ (u.ch c).hif.posValid = true ∧ ((u.ch p).cal.requirement : Int) ≤ (u.ch c).hif.pos := by
  simp [State.meets]

theorem atTarget_of_aboveGate {t : Target} {g : Nat} {x : Int} (h : aboveGate t g = true) (hx : x ≤ g) :
    atTarget .opening t x = false := by
  cases t with
  | toEnd => rfl
  | pos n =>
    have hlt : g < n := by simpa [aboveGate] using h
    simp only [atTarget, decide_eq_false_iff_not]
    omega

end

end Sys2Proof.Machine
end

section
/-! The opening step that brings a leader to its gate (R146 to R148, R150, R151). -/

namespace Sys2Proof.Machine

/-- R146, occasion 2: the opening step of leader `p` under order `o` that brings it to its gate, no slot being to be granted. -/
structure StepToGate (s : State) (p c : Chan) (o : Order) (old pair : Pair) : Prop where
  calm : s.calm
  populated : (s.ch p).cal.populated = true
  companion : (s.ch p).cal.companion = some c
  ne : p ≠ c
  motion : (s.ch p).moc.motion = .opening
  order : (s.ch p).moc.order = some o
  dir : o.dir = .opening
  mover : o.mover = .client
  above : aboveGate o.target (s.ch p).cal.gate = true
  phase : (s.ch p).hif.phase = some old
  step : stepDir old pair = some .opening
  pos : (s.ch p).hif.pos + 1 = ((s.ch p).cal.gate : Int)
  bound : (s.ch p).cal.gate ≤ 4064
  spaced : s.spacingElapsed = false

namespace StepToGate
variable {s v w : State} {p c d : Chan} {o : Order} {old pair : Pair} {k : Channel} {q : List Chan} {es : List Event}

theorem queue (h : StepToGate s p c o old pair) : s.startQueue = [] := h.calm.2.1
theorem not_waiting (h : StepToGate s p c o old pair) (d : Chan) : (s.ch d).moc.motion ≠ .waiting := h.calm.2.2 d

theorem self (_ : StepToGate s p c o old pair) : (s.taken p pair .opening).ch p = s.takenBy p pair .opening := (does_taken ..).self

theorem other (_ : StepToGate s p c o old pair) (hd : d ≠ p) : (s.taken p pair .opening).ch d = s.ch d := (does_taken ..).other d hd

theorem takenBy_pos (h : StepToGate s p c o old pair) : (s.takenBy p pair .opening).hif.pos = ((s.ch p).cal.gate : Int) := h.pos

theorem exec (h : StepToGate s p c o old pair) : Machine.exec (.hallAcceptance p pair) s =
    .next (settle (tellStep p .opening (throughGate p o id (some c) (s.taken p pair .opening)))) := by
  have hpos := h.pos
  have hbound := h.bound
  have hout : stepOutcome p (s.taken p pair .opening) = throughGate p o id (some c) (s.taken p pair .opening) := by
    rw [stepOutcome_of_opening (by rw [h.self]; exact h.motion) (by rw [h.self]; exact h.order), if_neg, State.gateAtStep, if_pos]
    · rw [h.self]
      exact congrArg (throughGate p o id · (s.taken p pair .opening)) h.companion
    · rw [h.self]
      exact ⟨h.above, h.pos⟩
    · rw [h.self, h.takenBy_pos, h.dir, atTarget_of_aboveGate h.above (by omega)]
      decide
  rw [exec_drive_step h.populated h.phase h.step (by simp only [stepDelta]; omega) (by simp only [stepDelta]; omega)
    (by rw [h.motion]; rfl), hout]

/-- R147: a pass leaves the drive on. -/
theorem passes (h : StepToGate s p c o old pair) (hg : gateTest p c o (s.taken p pair .opening) = (.pass, s.taken p pair .opening)) :
    ∃ t, Machine.exec (.hallAcceptance p pair) s = .next t ∧ Does p s t (s.takenBy p pair .opening) s.startQueue [] := by
  refine ⟨_, h.exec, ?_⟩
  rw [throughGate_pass hg]
  exact ((does_taken ..).tellStep .opening).settle_spaced h.spaced (by rw [show (s.takenBy p pair .opening).moc.motion = .opening from h.motion]; decide)
    fun d _ => h.not_waiting d

/-- What the gate test does to the follower is apart from the leader. -/
theorem leader (h : StepToGate s p c o old pair) (hv : Does c (s.taken p pair .opening) v k q es) :
    v.ch p = s.takenBy p pair .opening := (hv.other p h.ne).trans h.self

theorem rest (h : StepToGate s p c o old pair) (hv : Does c (s.taken p pair .opening) v k q es) (hp : d ≠ p) (hc : d ≠ c) :
    v.ch d = s.ch d := (hv.other d hc).trans (h.other hp)

theorem clock (_ : StepToGate s p c o old pair) (hv : Does c (s.taken p pair .opening) v k q es) : v.clock = s.clock :=
  hv.clock.trans (does_taken ..).clock

theorem still_spaced (h : StepToGate s p c o old pair) (hv : Does c (s.taken p pair .opening) v k q es) : v.spacingElapsed = false :=
  (hv.spacingElapsed.trans (does_taken ..).spacingElapsed).trans h.spaced

/-- Nobody but the leader waits, whatever became of the follower. -/
theorem nobody_else (h : StepToGate s p c o old pair) (hv : Does c (s.taken p pair .opening) v k q es) (hk : k.moc.motion ≠ .waiting)
    (hp : d ≠ p) : (v.ch d).moc.motion ≠ .waiting := by
  by_cases hc : d = c
  · subst hc
    rwa [hv.self]
  · rw [h.rest hv hp hc]
    exact h.not_waiting d

/-- R150: the leader waits, its slot released. -/
theorem waits (h : StepToGate s p c o old pair) (hg : gateTest p c o (s.taken p pair .opening) = (.wait, v))
    (hv : Does c (s.taken p pair .opening) v k q es) (hun : Unheard v) (hk : k.moc.motion ≠ .waiting) :
    ∃ t, Machine.exec (.hallAcceptance p pair) s = .next t ∧ t.ch c = k ∧ t.startQueue = q ∧ (∀ d, d ≠ p → d ≠ c → t.ch d = s.ch d) ∧
      t.ch p = (s.takenBy p pair .opening).waits s.clock.now .leader := by
  have hwait := (Does.refl p v).enterWaiting .leader
  have hdone := hwait.tellStep .opening
  have hself : (v.ch p).waits v.clock.now .leader = (s.takenBy p pair .opening).waits s.clock.now .leader := by
    rw [h.leader hv, h.clock hv]
  rw [hself] at hwait hdone
  have hnobody : (enterWaiting p .leader v).waitersOn p = [] := waitersOn_of_free fun d hd => by
    by_cases hp : d = p
    · subst hp
      have hcal : ((s.takenBy d pair .opening).waits s.clock.now .leader).cal = (s.takenBy d pair .opening).cal := off_cal
      rw [hwait.self, hcal] at hd
      exact absurd (Option.some.inj ((show (s.ch d).cal.companion = some d from hd).symm.trans h.companion)) h.ne
    · rw [hwait.other d hp]
      exact h.nobody_else hv hk hp
  have hquiet := (hun.enterWaiting p .leader).tellStep .opening hnobody
  refine ⟨_, h.exec, ?_⟩
  rw [throughGate_wait hg, settle, settleN_of_unheard 256 hquiet (.inl (hdone.spacingElapsed.trans (h.still_spaced hv))) fun d hm hh => ?_]
  · refine ⟨(hdone.other c h.ne.symm).trans hv.self, hdone.queue.trans hv.queue, fun d hp hc => ?_, hdone.self⟩
    exact (hdone.other d hp).trans (h.rest hv hp hc)
  · by_cases hp : d = p
    · subst hp
      rw [hdone.self] at hh
      cases hh
    · rw [hdone.other d hp] at hm
      exact absurd hm (h.nobody_else hv hk hp)

/-- R147, R151: the leader's order ends COMPANION_BLOCKED. -/
theorem blocks (h : StepToGate s p c o old pair) (hg : gateTest p c o (s.taken p pair .opening) = (.blocked, v))
    (hv : Does c (s.taken p pair .opening) v k q es) (hk : k.moc.motion ≠ .waiting) :
    ∃ t, Machine.exec (.hallAcceptance p pair) s = .next t ∧ t.ch c = k ∧ (∀ d, d ≠ p → d ≠ c → t.ch d = s.ch d) ∧
      (t.ch p).moc.motion = .idle ∧ (t.ch p).moc.order = none ∧ (t.ch p).moc.slot = false ∧ ∀ y, Hears s y .moveEnded p →
        Holds t y .moveEnded (some p) (signedWord (s.ch p).cal.gate) 11 := by
  have hbase := Does.refl p v
  rw [h.leader hv] at hbase
  have hend := ((hbase.endSingle h.order (single_of_client h.mover) (e := .companionBlocked) (by decide) (by decide) .idle).tellStep
    .opening).settle_spaced (h.still_spaced hv) nofun fun d hp => h.nobody_else hv hk hp
  rw [endReports_of_client h.mover] at hend
  refine ⟨_, h.exec, ?_⟩
  rw [throughGate_blocked hg, endOrder]
  refine ⟨(hend.other c h.ne.symm).trans hv.self, fun d hp hc => (hend.other d hp).trans (h.rest hv hp hc), ?_, ?_, ?_, fun y hy => ?_⟩
  · rw [hend.self]
    rfl
  · rw [hend.self]
    rfl
  · rw [hend.self]
    rfl
  · have hhears := (hears_iff (w := 0) (d := 0) (ms := 0) (by decide)).mp
      ((((does_taken s p pair .opening).posts.trans hv.posts).hears _ y).trans ((hears_iff (by decide)).mpr hy))
    have hholds := hend.holds_end (x := (s.takenBy p pair .opening).hif.pos) (e := .companionBlocked) (by simp) (by simp) y hhears
    rwa [h.takenBy_pos] at hholds

end StepToGate

end Sys2Proof.Machine
end

section
/-! The internal open of a leader at its gate (R148). -/

namespace Sys2Proof.Machine

section
variable {s u v : State} {c p d : Chan} {k k' : Channel} {q q' : List Chan} {es es' : List Event} {o : Order}

theorem agenda_holdOrder (c : Chan) (o : Order) (u : State) : (holdOrder c o u).agenda = u.agenda := by
  unfold holdOrder
  dsimp only
  split
  · split <;> rfl
  · rfl

/-- R148: the internal open on an IDLE follower that is not at its target joins the queue. -/
theorem installInternal_idle (hm : (u.ch c).moc.motion = .idle) (hq : u.startQueue = []) (ha : u.agenda = [])
    (ht : atTarget o.dir (u.normalized c o).target (u.ch c).hif.pos = false) (hw : ∀ d, (u.ch d).moc.motion ≠ .waiting) :
    Does c u (installInternal c o u) (((u.ch c).unwindowed.ordered (u.normalized c o)).queued) [c] [] ∧
      Unheard (installInternal c o u) := by
  have hbase := (Does.refl c u).clearOverride
  have hjoin := (hbase.holdOrder (u.normalized c o)).queueUp
  have hqueue : (joinStartQueue c (holdOrder c (u.normalized c o) (clearOverride c u))).startQueue = [c] :=
    startQueue_joinStartQueue_calm fun d hd => by
      rw [(hbase.holdOrder _).queue, hq] at hd
      cases hd
  have hbasic : installBasic c (u.normalized c o) (clearOverride c u) =
      noteMoved c (joinStartQueue c (holdOrder c (u.normalized c o) (clearOverride c u))) :=
    installBasic_of_idle (by rw [hbase.self]; exact hm) (by rw [hbase.self]; exact ht)
  have heq : installInternal c o u = noteMoved c (joinStartQueue c (holdOrder c (u.normalized c o) (clearOverride c u))) := by
    unfold installInternal
    dsimp only
    rw [if_neg (by rw [hm]; decide), hbasic]
  have hquiet : Unheard (joinStartQueue c (holdOrder c (u.normalized c o) (clearOverride c u))) :=
    Unheard.push (t := .grantTest) (unheard_of_nil (s := holdOrder c (u.normalized c o) (clearOverride c u))
      ((agenda_holdOrder ..).trans ha)) trivial
  rw [heq]
  rw [hqueue] at hjoin
  refine ⟨hjoin.noteMoved c, hquiet.noteMoved (waitersOn_of_free fun d _ => ?_)⟩
  by_cases hd : d = c
  · subst hd
    rw [hjoin.self]
    exact nofun
  · rw [hjoin.other d hd]
    exact hw d

/-- R148, R79: one that is at its target ends there. -/
theorem installInternal_at_target (hm : (u.ch c).moc.motion = .idle) (hp : o.phase ≠ .refOpening)
    (ht : atTarget o.dir (u.normalized c o).target (u.ch c).hif.pos = true) : ∃ j q' es',
    Does c u (installInternal c o u) j q' es' ∧ j.moc.motion = .idle ∧ j.moc.order = none := by
  have hbase := (Does.refl c u).clearOverride
  have hbasic : installBasic c (u.normalized c o) (clearOverride c u) =
      noteMoved c (endTarget c (holdOrder c (u.normalized c o) (clearOverride c u))) := by
    rw [installBasic_of_idle_at_target (by rw [hbase.self]; exact hm) (by rw [hbase.self]; exact ht)]
    exact congrArg (noteMoved c) (if_neg hp)
  obtain ⟨gs, -, -, hend⟩ := (hbase.holdOrder (u.normalized c o)).endTarget rfl
  have heq : installInternal c o u = noteMoved c (endTarget c (holdOrder c (u.normalized c o) (clearOverride c u))) := by
    unfold installInternal
    dsimp only
    rw [if_neg (by rw [hm]; decide), hbasic]
  rw [heq]
  exact ⟨_, _, _, hend.noteMoved c, rfl, rfl⟩

end

namespace StepToGate
variable {s : State} {p c : Chan} {o : Order} {old pair : Pair}

/-- The follower at the gate test is as it was. -/
theorem follower (h : StepToGate s p c o old pair) : (s.taken p pair .opening).ch c = s.ch c := h.other h.ne.symm

theorem meets_eq (h : StepToGate s p c o old pair) : (s.taken p pair .opening).meets p c = s.meets p c := by
  unfold State.meets
  rw [h.follower, h.self]
  rfl

theorem not_coming (h : StepToGate s p c o old pair) (hm : (s.ch c).moc.motion = .idle ∨ (s.ch c).moc.motion = .fault) :
    (s.taken p pair .opening).comingOpen p c = false := by
  unfold State.comingOpen
  rw [h.follower]
  rcases hm with hm | hm <;> rw [hm]

theorem refusal_eq (h : StepToGate s p c o old pair) :
    (s.taken p pair .opening).refusal o.client c .opening .auto o.origin = s.refusal o.client c .opening .auto o.origin :=
  refusal_congr (.of_eq h.follower (does_taken ..).device)

/-- R148: the internal open that the follower is to take. -/
theorem opens (h : StepToGate s p c o old pair) (hm : (s.ch c).moc.motion = .idle) (hmeets : s.meets p c = false)
    (hr : s.refusal o.client c .opening .auto o.origin = none) : gateTest p c o (s.taken p pair .opening) =
      afterInternal c (installInternal c (internalOpen p o s.clock.ms) (s.taken p pair .opening)) := by
  have hclock : (s.taken p pair .opening).clock = s.clock := (does_taken ..).clock
  rw [gateTest_opens (h.meets_eq.trans hmeets) (h.not_coming (.inl hm)) (by rw [State.openable, h.follower, hm])
    (h.refusal_eq.trans hr), hclock]

/-- R79: its target is normalized by what the follower is. -/
theorem normalized_eq (h : StepToGate s p c o old pair) (i : Order) : (s.taken p pair .opening).normalized c i = s.normalized c i := by
  unfold State.normalized
  rw [h.follower]

end StepToGate

end Sys2Proof.Machine
end

section
/-! The clamp of a follower at Q (R149), and the resumption of a channel that waits (R151, R152), at a step. -/

namespace Sys2Proof.Machine

section
variable {s : State} {c p d : Chan} {o k : Order} {old pair : Pair}

/-! ## The clamp of a follower (R149) -/

theorem clampedAtStep_of_leader {u : State} (hp : (u.ch p).cal.companion = some c) (ht : o.target = .toEnd)
    (hq : (u.ch c).hif.pos = ((u.ch p).cal.requirement : Int)) (hg : u.beyondGate p = true) : u.clampedAtStep c o = true := by
  refine List.any_eq_true.mpr ⟨p, List.mem_filter.mpr ⟨List.mem_finRange p, by simpa using hp⟩, ?_⟩
  simp [State.clampedBy, belowRequirement, ht, hq, hg]

/-- R149, R150: the closing step that brings a follower to Q while its leader is beyond its gate makes it wait. -/
theorem step_to_clamp (hcalm : s.calm) (hpop : (s.ch c).cal.populated = true) (hcomp : (s.ch p).cal.companion = some c)
    (hne : p ≠ c) (hm : (s.ch c).moc.motion = .closing) (ho : (s.ch c).moc.order = some o) (ht : o.target = .toEnd)
    (hp : (s.ch c).hif.phase = some old) (hd : stepDir old pair = some .closing)
    (hpos : (s.ch c).hif.pos - 1 = ((s.ch p).cal.requirement : Int)) (hq : (s.ch p).cal.requirement ≤ 4064)
    (hg : s.beyondGate p = true) : ∃ t, exec (.hallAcceptance c pair) s = .next t ∧
      Does c s t ((s.takenBy c pair .closing).waits s.clock.now .follower) [] [] := by
  obtain ⟨hagenda, hqueue, hwait⟩ := hcalm
  have htaken := does_taken s c pair .closing
  have hleader : (s.taken c pair .closing).ch p = s.ch p := htaken.other p hne
  have htakenpos : (s.takenBy c pair .closing).hif.pos = ((s.ch p).cal.requirement : Int) := hpos
  have hbeyond : (s.taken c pair .closing).beyondGate p = true := by rwa [State.beyondGate, hleader]
  have hclamped : (s.taken c pair .closing).clampedAtStep c o = true :=
    clampedAtStep_of_leader (p := p) (by rw [hleader]; exact hcomp) ht (by rw [htaken.self, hleader]; exact htakenpos) hbeyond
  have hout : stepOutcome c (s.taken c pair .closing) = enterWaiting c .follower (s.taken c pair .closing) := by
    rw [stepOutcome_of_closing (by rw [htaken.self]; exact hm) (by rw [htaken.self]; exact ho), ht, if_neg (by simp [atTarget]),
      if_pos hclamped]
  have hdone := (htaken.enterWaiting .follower).tellStep .closing
  have hquiet := ((unheard_of_nil (s := s.taken c pair .closing) hagenda).enterWaiting c .follower).notifyFollower c
  rw [← tellStep_closing] at hquiet
  have hexec := exec_drive_step hpop hp hd (by simp only [stepDelta]; omega) (by simp only [stepDelta]; omega) (by rw [hm]; rfl)
  rw [hqueue] at hdone
  rw [hout] at hexec
  refine ⟨_, hexec, ?_⟩
  generalize tellStep c .closing (enterWaiting c .follower (s.taken c pair .closing)) = v at hdone hquiet ⊢
  rw [settle, settleN_of_unheard 256 hquiet (.inr hdone.queue) fun d hmd _ => ?_]
  · exact hdone.agenda []
  · by_cases e : d = c
    · subst e
      have hv : v.ch p = s.ch p := hdone.other p hne
      refine List.any_eq_true.mpr ⟨p, List.mem_filter.mpr ⟨List.mem_finRange p, ?_⟩, ?_⟩
      · rw [hv]
        simpa using hcomp
      · have hb : v.beyondGate p = true := by rwa [State.beyondGate, hv]
        have hx : ((s.takenBy d pair .closing).waits s.clock.now .follower).hif.pos = (s.takenBy d pair .closing).hif.pos := off_pos
        simp [State.stillClamps, hb, hv, hdone.self, hx, htakenpos]
    · rw [hdone.other d e] at hmd
      exact absurd hmd (hwait d)

/-! ## Resumption (R151, R152) -/

theorem filter_eq_singleton {f : Chan → Bool} (h : ∀ d, f d = decide (d = p)) : allChans.filter f = [p] := by
  rw [funext h]
  clear h
  revert p
  decide

/-- R151: a leader alone in waiting on `c`. -/
theorem waitersOn_single {u : State} (hc : (u.ch p).cal.companion = some c) (hm : (u.ch p).moc.motion = .waiting)
    (hh : (u.ch p).hold = .leader) (hw : ∀ d, d ≠ p → (u.ch d).moc.motion ≠ .waiting) : u.waitersOn c = [p] := by
  rw [State.waitersOn, State.leadersOf, List.filter_filter]
  refine filter_eq_singleton fun d => ?_
  by_cases hd : d = p
  · subst hd
    simp [hc, hm, hh]
  · simp [hd, hw d hd]

/-- R151: the follower's opening step to Q resumes the waiting leader. -/
theorem step_resumes_leader (hagenda : s.agenda = []) (hqueue : s.startQueue = []) (hpop : (s.ch c).cal.populated = true)
    (hcomp : (s.ch p).cal.companion = some c) (hne : p ≠ c) (hwait : ∀ d, d ≠ p → (s.ch d).moc.motion ≠ .waiting)
    (hpm : (s.ch p).moc.motion = .waiting) (hph : (s.ch p).hold = .leader) (hcc : (s.ch c).cal.companion = none)
    (hm : (s.ch c).moc.motion = .opening) (ho : (s.ch c).moc.order = some k) (hdir : k.dir = .opening)
    (ht : atTarget .opening k.target ((s.ch c).hif.pos + 1) = false) (hvalid : (s.ch c).hif.posValid = true)
    (hp : (s.ch c).hif.phase = some old) (hd : stepDir old pair = some .opening)
    (hq : ((s.ch p).cal.requirement : Int) ≤ (s.ch c).hif.pos + 1) (hlow : -1025 ≤ (s.ch c).hif.pos)
    (hhigh : (s.ch c).hif.pos + 1 ≤ 5119) (hs : s.spacingElapsed = false) :
    ∃ t v, exec (.hallAcceptance c pair) s = .next t ∧ Does c s v (s.takenBy c pair .opening) [] [] ∧
      Does p v t (s.ch p).resumed.queued [p] [] := by
  have htaken := does_taken s c pair .opening
  have hleader : (s.taken c pair .opening).ch p = s.ch p := htaken.other p hne
  have hout : stepOutcome c (s.taken c pair .opening) = s.taken c pair .opening :=
    stepOutcome_of_opening_free (o := k) (by rw [htaken.self]; exact hm) (by rw [htaken.self]; exact ho)
      (by rw [htaken.self, hdir]; exact ht) (by rw [htaken.self]; exact hcc)
  have hwaiters : (s.taken c pair .opening).waitersOn c = [p] := waitersOn_single (by rw [hleader]; exact hcomp)
    (by rw [hleader]; exact hpm) (by rw [hleader]; exact hph) fun d hdp => by
      by_cases e : d = c
      · subst e
        rw [htaken.self]
        show (s.ch d).moc.motion ≠ .waiting
        exact hwait d hdp
      · rw [htaken.other d e]
        exact hwait d hdp
  have htell : tellStep c .opening (s.taken c pair .opening) = { s.taken c pair .opening with agenda := [.moved c [p]] } := by
    rw [tellStep_opening, notifyFollower_of_none (s := noteMoved c (s.taken c pair .opening))
      (by show ((s.taken c pair .opening).ch c).cal.companion = none; rw [htaken.self]; exact hcc), noteMoved, hwaiters]
    show ({ s.taken c pair .opening with agenda := (s.taken c pair .opening).agenda ++ [.moved c [p]] } : State) = _
    rw [agenda_taken, hagenda]
    rfl
  have hexec := exec_drive_step hpop hp hd (by simp only [stepDelta]; omega) (by simpa only [stepDelta] using hhigh) (by rw [hm]; rfl)
  rw [hout, htell] at hexec
  rw [hqueue] at htaken
  generalize s.taken c pair .opening = u at hexec htaken hleader
  have hresume : leaderAfterMove c { u with agenda := [] } p = resume p { u with agenda := [] } := by
    have hself : u.ch c = s.takenBy c pair .opening := htaken.self
    have hpos : (s.takenBy c pair .opening).hif.pos = (s.ch c).hif.pos + 1 := rfl
    have hval : (s.takenBy c pair .opening).hif.posValid = true := hvalid
    have hord : (s.takenBy c pair .opening).moc.order = some k := ho
    have hwaits : ({ u with agenda := [] } : State).waitsOn p c = true := by
      show (decide ((u.ch p).moc.motion = .waiting) && decide ((u.ch p).hold = .leader) && decide ((u.ch p).cal.companion = some c)) = true
      simp [hleader, hpm, hph, hcomp]
    have hmeets : ({ u with agenda := [] } : State).meets p c = true := by
      show ((u.ch c).hif.posValid && decide (((u.ch p).cal.requirement : Int) ≤ (u.ch c).hif.pos)) = true
      simp [hself, hval, hpos, hleader, hq]
    have hopen : ({ u with agenda := [] } : State).holdsClose c = false := by
      have hord' : (({ u with agenda := [] } : State).ch c).moc.order = some k := by
        show (u.ch c).moc.order = some k
        rw [hself]
        exact hord
      unfold State.holdsClose
      rw [hord']
      simp [hdir]
    rw [leaderAfterMove, hwaits, hmeets, hopen]
    rfl
  have hdone := settle_resumes (s := { u with agenda := [.moved c [p]] }) (p := p) rfl hresume htaken.queue
    (htaken.spacingElapsed.trans hs) fun d hdp => by
      show (u.ch d).moc.motion ≠ .waiting
      by_cases e : d = c
      · subst e
        rw [htaken.self]
        show (s.ch d).moc.motion ≠ .waiting
        exact hwait d hdp
      · rw [htaken.other d e]
        exact hwait d hdp
  have hchp : ({ u with agenda := [.moved c [p]] } : State).ch p = s.ch p := hleader
  rw [hchp] at hdone
  exact ⟨_, _, hexec, htaken.agenda [], hdone⟩

/-- R152: the leader's closing step to its gate resumes the held follower. -/
theorem step_resumes_follower (hagenda : s.agenda = []) (hqueue : s.startQueue = []) (hpop : (s.ch p).cal.populated = true)
    (hcomp : (s.ch p).cal.companion = some c) (hne : p ≠ c) (hlc : s.leadersOf c = [p]) (hlp : s.leadersOf p = [])
    (hwait : ∀ d, d ≠ c → (s.ch d).moc.motion ≠ .waiting) (hcm : (s.ch c).moc.motion = .waiting)
    (hch : (s.ch c).hold = .follower) (hm : (s.ch p).moc.motion = .closing) (ho : (s.ch p).moc.order = some k)
    (hdir : k.dir = .closing) (ht : k.target = .toEnd) (hvalid : (s.ch p).hif.posValid = true)
    (hp : (s.ch p).hif.phase = some old) (hd : stepDir old pair = some .closing)
    (hpos : (s.ch p).hif.pos - 1 = ((s.ch p).cal.gate : Int)) (hg : (s.ch p).cal.gate ≤ 4064) (hs : s.spacingElapsed = false) :
    ∃ t v, exec (.hallAcceptance p pair) s = .next t ∧ Does p s v (s.takenBy p pair .closing) [] [] ∧
      Does c v t (s.ch c).resumed.queued [c] [] := by
  have htaken := does_taken s p pair .closing
  have hfollower : (s.taken p pair .closing).ch c = s.ch c := htaken.other c hne.symm
  have hleaders (e : Chan) : (s.taken p pair .closing).leadersOf e = s.leadersOf e := htaken.leadersOf rfl e
  have hout : stepOutcome p (s.taken p pair .closing) = s.taken p pair .closing :=
    stepOutcome_of_closing_free (o := k) (by rw [htaken.self]; exact hm) (by rw [htaken.self]; exact ho)
      (by rw [ht]; simp [atTarget]) ((hleaders p).trans hlp)
  have htell : tellStep p .closing (s.taken p pair .closing) = { s.taken p pair .closing with agenda := [.followerTest c] } := by
    have hc : ((s.taken p pair .closing).ch p).cal.companion = some c := by rw [htaken.self]; exact hcomp
    rw [tellStep_closing]
    simp only [notifyFollower, hc]
    show ({ s.taken p pair .closing with agenda := (s.taken p pair .closing).agenda ++ [.followerTest c] } : State) = _
    rw [agenda_taken, hagenda]
    rfl
  have hexec := exec_drive_step hpop hp hd (by simp only [stepDelta]; omega) (by simp only [stepDelta]; omega) (by rw [hm]; rfl)
  rw [hout, htell] at hexec
  rw [hqueue] at htaken
  generalize s.taken p pair .closing = u at hexec htaken hfollower hleaders
  have hresume : followerAfter c { u with agenda := [] } = resume c { u with agenda := [] } := by
    have hself : u.ch p = s.takenBy p pair .closing := htaken.self
    have htakenpos : (s.takenBy p pair .closing).hif.pos = ((s.ch p).cal.gate : Int) := hpos
    have hval : (s.takenBy p pair .closing).hif.posValid = true := hvalid
    have hord : (s.takenBy p pair .closing).moc.order = some k := ho
    have hmot : (s.takenBy p pair .closing).moc.motion = .closing := hm
    have hcal : (s.takenBy p pair .closing).cal = (s.ch p).cal := rfl
    have hfree : u.stillClamps c p = false := by
      simp [State.stillClamps, State.beyondGate, State.opens, State.inReversal, hself, htakenpos, hval, hord, hmot, hcal, hdir]
    refine if_pos ⟨?_, ?_, ?_⟩
    · show (u.ch c).moc.motion = .waiting
      rw [hfollower, hcm]
    · show (u.ch c).hold = .follower
      rw [hfollower, hch]
    · show (u.leadersOf c).any (u.stillClamps c) = false
      rw [hleaders, hlc]
      simp [hfree]
  have hdone := settle_resumes (s := { u with agenda := [.followerTest c] }) (p := c) rfl hresume htaken.queue
    (htaken.spacingElapsed.trans hs) fun d hdc => by
      show (u.ch d).moc.motion ≠ .waiting
      by_cases e : d = p
      · subst e
        rw [htaken.self]
        show (s.ch d).moc.motion ≠ .waiting
        exact hwait d hdc
      · rw [htaken.other d e]
        exact hwait d hdc
  have hchc : ({ u with agenda := [.followerTest c] } : State).ch c = s.ch c := hfollower
  rw [hchc] at hdone
  exact ⟨_, _, hexec, htaken.agenda [], hdone⟩

end

end Sys2Proof.Machine
end

section
/-! Settles O37. -/

namespace Sys2Proof.Machine

/-- Settles O37: the deadlines end the order; a step to the gate passes, waits or ends the order by what the follower is; a step to
Q under the clamp waits; the step that frees the channel waiting resumes it. -/
theorem deadlinesEndTheOrder : Obligations.DeadlinesEndTheOrder := by
  refine ⟨?deadlines, ?gate, ?clamp, ?leader, ?follower⟩
  case deadlines =>
    intro s c o deadline _ hqueue hwait ho hm hd ended
    refine ⟨fun hmode hr => ⟨_, exec_refreshDeadline ho hmode hr hd,
      does_endOrder_facts (does_endOrder hqueue hwait ho hm (by decide) (by decide))⟩, fun hmot hw hh => ?_, fun hmot hw hh => ?_⟩
    · refine ⟨_, (exec_waitDeadline hmot hw hd).trans ?_,
        does_endOrder_facts (does_endOrder (e := .companionBlocked) hqueue hwait ho hm (by decide) (by decide))⟩
      rw [waitExpired, hh]
    · refine ⟨_, (exec_waitDeadline hmot hw hd).trans ?_,
        does_endOrder_facts (does_endOrder (e := .clamped) hqueue hwait ho hm (by decide) (by decide))⟩
      rw [waitExpired, hh]
  case gate =>
    intro s p c o old pair hcalm _ hpop hcomp hne hm ho hdir hmover habove hp hd hpos hg hs meets others waits blocked inner
    have h : StepToGate s p c o old pair := ⟨hcalm, hpop, hcomp, hne, hm, ho, hdir, hmover, habove, hp, hd, hpos, hg, hs⟩
    have hstand := Does.refl c (s.taken p pair .opening)
    rw [h.follower] at hstand
    have hquiet : Unheard (s.taken p pair .opening) := unheard_of_nil hcalm.1
    have hshort (hn : ¬ meets) : s.meets p c = false := Bool.eq_false_iff.mpr fun hh => hn (meets_iff.mp hh)
    have hwaits {t : State} (hrest : ∀ d, d ≠ p → d ≠ c → t.ch d = s.ch d)
        (ht : t.ch p = (s.takenBy p pair .opening).waits s.clock.now .leader) : waits t := by
      have hk := Channel.off_of_drive (k := s.takenBy p pair .opening) (now := s.clock.now)
        (by rw [show (s.takenBy p pair .opening).moc.motion = .opening from hm]; decide)
      refine ⟨hrest, ?_, ?_, ?_, ?_, ?_, ?_, ?_⟩ <;> rw [ht]
      · rfl
      · rfl
      · rfl
      · rfl
      · simpa [Channel.waits] using (show (s.takenBy p pair .opening).moc.order = some o from ho)
      · rw [Channel.waits, hk]
      · rw [Channel.waits, hk]
        exact hpos
    refine ⟨fun hmeets hopen => ?_, fun hn hopen hmc hoc => ?_, fun hn hmc hoc hr => ⟨fun ht => ?_, fun ht => ?_⟩,
      fun hn hmc hoc hr => ?_, fun hn hmc => ?_⟩
    · have hclose : (s.taken p pair .opening).holdsClose c = false := by
        unfold State.holdsClose
        rw [h.follower]
        split
        · next k hk => simp [hopen k hk]
        · rfl
      obtain ⟨t, hexec, hdone⟩ := h.passes (gateTest_pass (h.meets_eq.trans (meets_iff.mpr hmeets)) hclose)
      refine ⟨t, hexec, hdone.other, ?_, ?_, ?_⟩ <;> rw [hdone.self]
      · exact hm
      · exact ho
      · rfl
    · obtain ⟨k, hk⟩ := Option.ne_none_iff_exists'.mp hoc
      obtain ⟨hkd, hkt⟩ := hopen k hk
      have hcoming : (s.taken p pair .opening).comingOpen p c = true := by
        unfold State.comingOpen
        rw [h.follower, hmc, hk]
        simp [hkd, hkt, reachesRequirement]
      obtain ⟨t, hexec, hc, -, hrest, ht⟩ := h.waits (gateTest_coming (h.meets_eq.trans (hshort hn)) hcoming) hstand hquiet
        (by rw [hmc]; decide)
      exact ⟨t, hexec, hwaits hrest ht, hc⟩
    · obtain ⟨hinst, hunheard⟩ := installInternal_idle (u := s.taken p pair .opening) (c := c) (o := internalOpen p o s.clock.ms)
        (by rw [h.follower]; exact hmc) ((does_taken ..).queue.trans hcalm.2.1) hcalm.1 (by rw [h.normalized_eq, h.follower]; exact ht)
        fun d => by
          by_cases hdp : d = p
          · subst hdp
            rw [h.self]
            show (s.ch d).moc.motion ≠ .waiting
            exact h.not_waiting d
          · rw [h.other hdp]
            exact h.not_waiting d
      have hgate := h.opens hmc (hshort hn) hr
      generalize installInternal c (internalOpen p o s.clock.ms) (s.taken p pair .opening) = v at hinst hunheard hgate
      rw [afterInternal, hinst.self] at hgate
      obtain ⟨t, hexec, hc, hq, hrest, hp⟩ := h.waits hgate hinst hunheard nofun
      refine ⟨t, hexec, hwaits hrest hp, ?_, ?_, hq⟩ <;> rw [hc]
      · rfl
      · show some ((s.taken p pair .opening).normalized c _) = _
        rw [h.normalized_eq]
    · obtain ⟨j, q', es', hinst, hjm, hjo⟩ := installInternal_at_target (u := s.taken p pair .opening) (c := c)
        (o := internalOpen p o s.clock.ms) (by rw [h.follower]; exact hmc) nofun (by rw [h.normalized_eq, h.follower]; exact ht)
      have hgate := h.opens hmc (hshort hn) hr
      generalize installInternal c (internalOpen p o s.clock.ms) (s.taken p pair .opening) = v at hinst hgate
      rw [afterInternal, hinst.self, hjo] at hgate
      obtain ⟨t, hexec, hc, hrest, hblocked⟩ := h.blocks hgate hinst (by rw [hjm]; decide)
      exact ⟨t, hexec, ⟨hrest, hblocked⟩, by rw [hc, hjm], by rw [hc, hjo]⟩
    · obtain ⟨t, hexec, hc, hrest, hblocked⟩ := h.blocks (gateTest_refused (h.meets_eq.trans (hshort hn)) (h.not_coming (.inl hmc))
        (by rw [h.refusal_eq]; exact hr)) hstand (by rw [hmc]; decide)
      exact ⟨t, hexec, ⟨hrest, hblocked⟩, hc⟩
    · obtain ⟨t, hexec, hc, hrest, hblocked⟩ := h.blocks (gateTest_shut (h.meets_eq.trans (hshort hn)) (h.not_coming (.inr hmc))
        (by rw [State.openable, h.follower, hmc])) hstand (by rw [hmc]; decide)
      exact ⟨t, hexec, ⟨hrest, hblocked⟩, hc⟩
  case clamp =>
    intro s p c o old pair hcalm _ hpop hcomp hne hm ho _ ht hp hd hpos hq hbeyond
    obtain ⟨t, hexec, hdone⟩ := step_to_clamp hcalm hpop hcomp hne hm ho ht hp hd hpos hq
      (by rcases hbeyond with hb | hb <;> simp [State.beyondGate, hb])
    have hk := Channel.off_of_drive (k := s.takenBy c pair .closing) (now := s.clock.now)
      (by rw [show (s.takenBy c pair .closing).moc.motion = .closing from hm]; decide)
    refine ⟨t, hexec, hdone.other, ?_, ?_, ?_, ?_, ?_, ?_, ?_⟩ <;> rw [hdone.self]
    · rfl
    · rfl
    · rfl
    · rfl
    · simpa [Channel.waits] using (show (s.takenBy c pair .closing).moc.order = some o from ho)
    · rw [Channel.waits, hk]
    · rw [Channel.waits, hk]
      exact hpos
  case leader =>
    intro s p c o k old pair hagenda hqueue _ hpop hcomp hne hwait hpm hph _ hcc hm ho hdir ht hvalid hp hd hq hlow hhigh hs
    obtain ⟨t, v, hexec, hv, hdone⟩ := step_resumes_leader hagenda hqueue hpop hcomp hne hwait hpm hph hcc hm ho hdir ht hvalid hp hd hq
      hlow hhigh hs
    refine ⟨t, hexec, fun d hdp hdc => (hdone.other d hdp).trans (hv.other d hdc), hdone.queue, ?_, hdone.self⟩
    rw [hdone.other c hne.symm, hv.self]
    exact hm
  case follower =>
    intro s p c o k old pair hagenda hqueue _ hpop hcomp hne hlc hlp hwait hcm hch _ hm ho hdir ht hvalid hp hd hpos hg hs
    obtain ⟨t, v, hexec, hv, hdone⟩ := step_resumes_follower hagenda hqueue hpop hcomp hne hlc hlp hwait hcm hch hm ho hdir ht hvalid hp
      hd hpos hg hs
    refine ⟨t, hexec, fun d hdp hdc => (hdone.other d hdc).trans (hv.other d hdp), hdone.queue, ?_, hdone.self⟩
    rw [hdone.other p hne, hv.self]
    exact hm

end Sys2Proof.Machine
end

section
/-! The table of section 5.1 (R76, R81, R104, R105), part 1: its rows, the operations that leave motion alone (`Still`),
and what an operation makes of one channel's motion (`Moves`). -/

namespace Sys2Proof.Machine

/-! ## The rows of the table -/

/-- `Channel.inTable`, which looks at MOC's part and the hold kind alone. -/
def Moc.InRow (m : Moc) (h : Hold) (queued : Prop) : Prop :=
  ({ resetChannel with moc := m, hold := h } : Channel).inTable queued

theorem inTable_iff {k : Channel} {queued : Prop} : k.inTable queued ↔ k.moc.InRow k.hold queued := Iff.rfl

section
variable {m : Moc} {h : Hold} {q : Prop}

theorem Moc.inRow_idle (hm : m.motion = .idle) : m.InRow h q ↔
    m.order = none ∧ ¬q ∧ m.slot = false ∧ m.wait = none ∧ h = .none ∧ m.revTarget = none ∧ m.stall = none ∧
      m.fault = none := by
  simp [InRow, Channel.inTable, hm]

theorem Moc.inRow_queued (hm : m.motion = .queued) : m.InRow h q ↔
    m.order.isSome = true ∧ q ∧ m.slot = false ∧ m.wait = none ∧ h = .none ∧ m.revTarget = none ∧ m.stall = none ∧
      m.fault = none := by
  simp [InRow, Channel.inTable, hm]

theorem Moc.inRow_brakingOrder (hm : m.motion = .brakingOrder) : m.InRow h q ↔
    m.order.isSome = true ∧ ¬q ∧ m.slot = true ∧ m.wait = none ∧ h = .none ∧ m.revTarget = none ∧ m.stall = none ∧
      m.fault = none := by
  simp [InRow, Channel.inTable, hm]

theorem Moc.inRow_brakingPinch (hm : m.motion = .brakingPinch) : m.InRow h q ↔
    m.order = none ∧ ¬q ∧ m.slot = true ∧ m.wait = none ∧ h = .none ∧ m.revTarget.isSome = true ∧ m.stall = none ∧
      m.fault = none := by
  simp [InRow, Channel.inTable, hm]

theorem Moc.inRow_reversing (hm : m.motion = .reversing) : m.InRow h q ↔
    m.order = none ∧ ¬q ∧ m.slot = true ∧ m.wait = none ∧ h = .none ∧ m.revTarget.isSome = true ∧
      m.stall.isSome = true ∧ m.fault = none := by
  simp [InRow, Channel.inTable, hm]

theorem Moc.inRow_closing (hm : m.motion = .closing) : m.InRow h q ↔
    m.order.isSome = true ∧ ¬q ∧ m.slot = true ∧ m.wait = none ∧ h = .none ∧ m.revTarget = none ∧
      m.stall.isSome = true ∧ m.fault = none ∧ m.order.map Order.dir = some .closing := by
  simp [InRow, Channel.inTable, hm, Motion.drive]

theorem Moc.inRow_opening (hm : m.motion = .opening) : m.InRow h q ↔
    m.order.isSome = true ∧ ¬q ∧ m.slot = true ∧ m.wait = none ∧ h = .none ∧ m.revTarget = none ∧
      m.stall.isSome = true ∧ m.fault = none ∧ m.order.map Order.dir = some .opening := by
  simp [InRow, Channel.inTable, hm, Motion.drive]

theorem Moc.inRow_waiting (hm : m.motion = .waiting) : m.InRow h q ↔
    m.order.isSome = true ∧ ¬q ∧ m.slot = false ∧ m.wait.isSome = true ∧ h ≠ .none ∧ m.revTarget = none ∧
      m.stall = none ∧ m.fault = none := by
  simp [InRow, Channel.inTable, hm]

theorem Moc.inRow_fault (hm : m.motion = .fault) : m.InRow h q ↔
    m.order = none ∧ ¬q ∧ m.slot = false ∧ m.wait = none ∧ h = .none ∧ m.revTarget = none ∧ m.stall = none ∧
      m.fault.isSome = true := by
  simp [InRow, Channel.inTable, hm]

/-- R81: the stall timer runs with a drive on, and only then. -/
theorem Moc.InRow.drive (hr : m.InRow h q) (hs : m.stall.isSome = true) : m.motion.drive.isSome = true := by
  have := hr.2.2.2.2.2.2.1.mp hs
  revert this
  cases m.motion <;> simp [Motion.drive]

/-- An order is held in five motions. -/
theorem Moc.InRow.order (hr : m.InRow h q) : m.order.isSome = true ↔
    m.motion ∈ [.queued, .brakingOrder, .closing, .opening, .waiting] := hr.1

end

/-! ## Operations that leave motion, holds and the start queue alone -/

/-- The motion, the holds, the start queue, Ns and READY stand. -/
structure Still (s t : State) : Prop where
  moc : ∀ d, (t.ch d).moc = (s.ch d).moc
  hold : ∀ d, (t.ch d).hold = (s.ch d).hold
  queue : t.startQueue = s.startQueue
  ns : t.glob.ns = s.glob.ns
  ready : t.ready = s.ready

namespace Still
variable {s u : State}

theorem refl (s : State) : Still s s := ⟨fun _ => rfl, fun _ => rfl, rfl, rfl, rfl⟩

theorem trans {t : State} (h : Still s t) (k : Still t u) : Still s u :=
  ⟨fun d => (k.moc d).trans (h.moc d), fun d => (k.hold d).trans (h.hold d), k.queue.trans h.queue,
    k.ns.trans h.ns, k.ready.trans h.ready⟩

/-- The channels stand. -/
theorem of_chans (h : Still s u) {t : State} (hc : t.chans = u.chans) (hq : t.startQueue = u.startQueue)
    (hn : t.glob.ns = u.glob.ns) (hr : t.ready = u.ready) : Still s t :=
  h.trans ⟨fun d => by rw [ch_congr hc], fun d => by rw [ch_congr hc], hq, hn, hr⟩

theorem updChan (h : Still s u) (c : Chan) {f : Channel → Channel} (hm : (f (u.ch c)).moc = (u.ch c).moc)
    (hh : (f (u.ch c)).hold = (u.ch c).hold) : Still s (updChan c f u) := by
  refine h.trans ⟨fun d => ?_, fun d => ?_, rfl, rfl, rfl⟩ <;>
  · rw [ch_updChan]
    split
    · next e => subst e; assumption
    · rfl

theorem updHif (h : Still s u) (c : Chan) (f : Hif → Hif) : Still s (updHif c f u) := h.updChan c rfl rfl
theorem updCtx (h : Still s u) (c : Chan) (f : LoadContext → LoadContext) : Still s (updCtx c f u) := h.updChan c rfl rfl
theorem updCal (h : Still s u) (c : Chan) (f : CalRecord → CalRecord) : Still s (updCal c f u) := h.updChan c rfl rfl
theorem updAuth (h : Still s u) (c : Chan) (f : Auth → Auth) : Still s (updAuth c f u) := h.updChan c rfl rfl
theorem updLearning (h : Still s u) (c : Chan) (f : Learning → Learning) : Still s (updLearning c f u) :=
  h.updChan c rfl rfl

theorem post (h : Still s u) (k : EventKind) (c : Option Chan) (w d : Word) : Still s (post k c w d u) :=
  h.trans ⟨fun _ => by rw [ch_post], fun _ => by rw [ch_post], by simp, by simp, by simp⟩

theorem postAt (h : Still s u) (k : EventKind) (c : Chan) (pos : Int) (d : Word) : Still s (postAt k c pos d u) :=
  h.post ..

theorem push (h : Still s u) (t : Task) : Still s (push t u) := h.of_chans rfl rfl rfl rfl
theorem setGroup (h : Still s u) (g : Fin 4) (e : Option GroupEntry) : Still s (setGroup g e u) :=
  h.of_chans rfl rfl rfl rfl

theorem notifyFollower (h : Still s u) (p : Chan) : Still s (notifyFollower p u) := by
  rw [notifyFollower_eq]; exact h.of_chans rfl rfl rfl rfl

theorem noteEnd (h : Still s u) (c : Chan) (own : Option Chan) (ok : Bool) : Still s (noteEnd c own ok u) :=
  (h.push _).notifyFollower _

theorem noteMoved (h : Still s u) (c : Chan) : Still s (noteMoved c u) := h.push _

theorem setPosition (h : Still s u) (c : Chan) (x : Int) (v : Bool) : Still s (setPosition c x v u) :=
  (h.updHif ..).notifyFollower _

theorem setLevel (h : Still s u) (c : Chan) (l : Level) (pos : Int) : Still s (setLevel c l pos u) := by
  unfold Machine.setLevel
  split
  · exact h
  · exact (h.updChan c rfl rfl).postAt ..

theorem reportGroup (h : Still s u) (c : Chan) (o : Order) (e : OrderEnd) : Still s (reportGroup c o e u) := by
  rw [reportGroup_eq]; exact h.of_chans rfl rfl rfl rfl

theorem reportGroupReversal (h : Still s u) (c : Chan) (e : RevEnd) : Still s (reportGroupReversal c e u) := by
  rw [reportGroupReversal_eq]; exact h.of_chans rfl rfl rfl rfl

theorem finishGroup (h : Still s u) (g : Fin 4) : Still s (finishGroup g u) := by
  rw [finishGroup_eq]; exact h.of_chans rfl rfl rfl rfl

theorem learnFailed (h : Still s u) (c : Chan) (k : RunKind) (r : LearnFail) (e : OrderEnd) (pos : Int) :
    Still s (learnFailed c k r e pos u) := (h.postAt ..).updLearning ..

theorem learnDone (h : Still s u) (c : Chan) (k : RunKind) (pos : Int) : Still s (learnDone c k pos u) :=
  (h.postAt ..).updLearning ..

theorem learnClose (h : Still s u) (c : Chan) (pos : Int) : Still s (learnClose c pos u) := by
  unfold Machine.learnClose
  split
  · exact h.learnFailed ..
  · split
    · exact h.learnFailed ..
    · exact ((h.updCal c _).setLevel ..).learnDone ..

theorem reportLearning (h : Still s u) (c : Chan) (o : Order) (e : OrderEnd) (pos : Int) :
    Still s (reportLearning c o e pos u) := by
  unfold Machine.reportLearning
  split
  · split
    · exact h.learnFailed ..
    · split
      · exact h.learnDone ..
      · split
        · exact h.learnClose ..
        · exact h.learnFailed ..
  · exact h

theorem clearOverride (h : Still s u) (c : Chan) : Still s (clearOverride c u) := h.updAuth ..

theorem noteOverride (h : Still s u) (c : Chan) (k : Nat) : Still s (noteOverride c k u) := by
  unfold Machine.noteOverride
  split
  · exact h
  · exact h.updAuth ..

theorem dropTake (h : Still s u) (c : Chan) : Still s (dropTake c u) := by
  rw [dropTake_eq]; exact h.of_chans rfl rfl rfl rfl

/-- R44: blanking touches blank counts alone. -/
theorem blanked_still (k : Channel) : k.blanked.moc = k.moc ∧ k.blanked.hold = k.hold := ⟨rfl, rfl⟩

theorem blankNeighbours (h : Still s u) (c : Chan) : Still s (blankNeighbours c u) := by
  obtain ⟨heq, hself, hother⟩ := blankNeighbours_spec c u
  have hch (d : Chan) : ((Machine.blankNeighbours c u).ch d).moc = (u.ch d).moc ∧
      ((Machine.blankNeighbours c u).ch d).hold = (u.ch d).hold := by
    by_cases hd : d = c
    · rw [hd, hself]; exact ⟨rfl, rfl⟩
    · rw [hother d hd]; exact blanked_still _
  exact h.trans ⟨fun d => (hch d).1, fun d => (hch d).2, by rw [heq], by rw [heq], by rw [heq]⟩

theorem takeCorrection (h : Still s u) (c : Chan) (o : Order) (x : Int) : Still s (takeCorrection c o x u) := by
  unfold Machine.takeCorrection
  split
  · exact h
  · split
    · exact h.updLearning ..
    · split
      · exact (h.updCal c _).setLevel ..
      · exact h

theorem takeAdaptation (h : Still s u) (c : Chan) (o : Order) (x : Int) : Still s (takeAdaptation c o x u) := by
  unfold Machine.takeAdaptation
  split
  · exact h.updCal ..
  · exact h

theorem closedEndAuth (h : Still s u) (c : Chan) (o : Order) : Still s (closedEndAuth c o u) :=
  (h.clearOverride c).updAuth ..

theorem skipMember (h : Still s u) (g : Fin 4) (c : Chan) (r : Result) : Still s (skipMember g c r u) := by
  unfold Machine.skipMember
  split
  · exact h.setGroup ..
  · exact h

theorem testFollowers (h : Still s u) : Still s (testFollowers u) := by
  unfold Machine.testFollowers
  generalize allChans = l
  induction l generalizing u with
  | nil => exact h
  | cons c l ih => exact ih (h.push _)

end Still

/-! ## What an operation makes of one channel's motion -/

/-- From `s` to `t` the operation touched the motion of channel `c` alone, which holds `k` and `h` after it; the start
queue is `q`, which differs from that of `s` in `c` alone. -/
structure Moves (c : Chan) (s t : State) (k : Moc) (h : Hold) (q : List Chan) : Prop where
  moc : (t.ch c).moc = k
  hold : (t.ch c).hold = h
  other : ∀ d, d ≠ c → (t.ch d).moc = (s.ch d).moc ∧ (t.ch d).hold = (s.ch d).hold
  queue : t.startQueue = q
  filter : q.filter (· ≠ c) = s.startQueue.filter (· ≠ c)
  ns : t.glob.ns = s.glob.ns
  ready : t.ready = s.ready

namespace Moves
variable {c : Chan} {s u v : State} {k : Moc} {h : Hold} {q : List Chan}

theorem refl (c : Chan) (s : State) : Moves c s s (s.ch c).moc (s.ch c).hold s.startQueue :=
  ⟨rfl, rfl, fun _ _ => ⟨rfl, rfl⟩, rfl, rfl, rfl, rfl⟩

theorem still (m : Moves c s u k h q) (hs : Still u v) : Moves c s v k h q :=
  ⟨(hs.moc c).trans m.moc, (hs.hold c).trans m.hold,
    fun d hd => ⟨(hs.moc d).trans (m.other d hd).1, (hs.hold d).trans (m.other d hd).2⟩,
    hs.queue.trans m.queue, m.filter, hs.ns.trans m.ns, hs.ready.trans m.ready⟩

/-- The membership of the other channels in the queue stands. -/
theorem mem_queue (m : Moves c s u k h q) {d : Chan} (hd : d ≠ c) : d ∈ q ↔ d ∈ s.startQueue := by
  have hf := congrArg (d ∈ ·) m.filter
  simpa [hd] using hf

theorem updMoc (m : Moves c s u k h q) (f : Moc → Moc) : Moves c s (updMoc c f u) (f k) h q :=
  ⟨by rw [ch_updMoc_self, m.moc], by rw [ch_updMoc_self]; exact m.hold,
    fun d hd => by rw [updMoc_eq, ch_updChan_ne (Ne.symm hd)]; exact m.other d hd, m.queue, m.filter, m.ns, m.ready⟩

theorem setHold (m : Moves c s u k h q) (h' : Hold) : Moves c s (setHold c h' u) k h' q :=
  ⟨by rw [ch_setHold_self]; exact m.moc, by rw [ch_setHold_self],
    fun d hd => by rw [setHold_eq, ch_updChan_ne (Ne.symm hd)]; exact m.other d hd, m.queue, m.filter, m.ns, m.ready⟩

theorem leaveQueue (m : Moves c s u k h q) : Moves c s (leaveQueue c u) k h (q.filter (· ≠ c)) :=
  ⟨m.moc, m.hold, m.other, by rw [leaveQueue_startQueue, m.queue], by rw [List.filter_filter]; simpa using m.filter,
    m.ns, m.ready⟩

theorem releaseSlot (m : Moves c s u k h q) : Moves c s (releaseSlot c u) { k with slot := false } h q := by
  obtain ⟨ho, hc, he, -⟩ := releaseSlot_spec c u
  refine ⟨by rw [hc, m.moc], by rw [hc]; exact m.hold, fun d hd => ?_, ?_, m.filter, ?_, ?_⟩
  · rw [ho d hd]; exact m.other d hd
  all_goals rw [he]
  exacts [m.queue, m.ns, m.ready]

/-- R82: what a channel holds after its drive, if on, was turned off. -/
def braked (now brake : Nat) (k : Moc) : Moc :=
  if k.motion.drive.isSome then { k with stall := none, brakeRunning := true, brakeExpiry := now + 10000 * brake } else k

theorem driveOff (m : Moves c s u k h q) :
    Moves c s (driveOff c u) (braked u.clock.now (u.ch c).cal.brake k) h q := by
  obtain ⟨ho, he, hc⟩ := driveOff_spec c u
  have hon : u.driveIsOn c = k.motion.drive.isSome := by rw [State.driveIsOn, m.moc]
  refine ⟨?_, ?_, fun d hd => ?_, ?_, m.filter, ?_, ?_⟩
  · rw [hc, hon, ← m.moc]
    unfold braked
    split <;> rfl
  · rw [hc]
    split <;> exact m.hold
  · rw [ho d hd]; exact m.other d hd
  all_goals rw [he]
  exacts [m.queue, m.ns, m.ready]

theorem joinStartQueue (m : Moves c s u k h q) :
    Moves c s (joinStartQueue c u) { k with motion := .queued } h (joinStartQueue c u).startQueue := by
  obtain ⟨hc, ho, hd, -⟩ := joinStartQueue_spec c u
  refine ⟨by rw [hc, m.moc], by rw [hc]; exact m.hold, fun d hd => by rw [ho d hd]; exact m.other d hd, rfl, ?_,
    m.ns, m.ready⟩
  have hq : (Machine.joinStartQueue c u).startQueue.filter (· ≠ c) = u.startQueue.filter (· ≠ c) := by
    change (if u.opens c then (u.startQueue.filter (· ≠ c)).takeWhile u.opens ++ [c] ++
      (u.startQueue.filter (· ≠ c)).dropWhile u.opens else u.startQueue.filter (· ≠ c) ++ [c]).filter (· ≠ c) = _
    have hff : (u.startQueue.filter (· ≠ c)).filter (· ≠ c) = u.startQueue.filter (· ≠ c) := by simp
    split
    · rw [List.filter_append, List.filter_append]
      simp only [ne_eq, not_true_eq_false, decide_false, Bool.false_eq_true, not_false_eq_true, List.filter_cons_of_neg,
        List.filter_nil, List.append_nil]
      rw [← List.filter_append, List.takeWhile_append_dropWhile]
      exact hff
    · rw [List.filter_append, hff]
      simp
  rw [hq, m.queue, m.filter]

/-- R100, steps 1 to 4: what a stopped channel holds. -/
def stopped (k : Moc) (m : Motion) : Moc :=
  { k with slot := false, motion := m, order := none, wait := none, revTarget := none }

theorem stopChannel (m : Moves c s u k h q) (mo : Motion) : Moves c s (stopChannel c mo u)
    (stopped (braked u.clock.now (u.ch c).cal.brake k) mo) .none (q.filter (· ≠ c)) :=
  (((m.driveOff.releaseSlot.leaveQueue).updMoc _).setHold _)

theorem holdOrder (m : Moves c s u k h q) (o : Order) : Moves c s (holdOrder c o u) { k with order := some o } h q := by
  have hm := m.updMoc (fun k => { k with order := some o })
  unfold Machine.holdOrder
  dsimp only
  split
  · split
    · exact hm.still ((Still.refl _).setGroup ..)
    · exact hm
  · exact hm

theorem replaceOrder (m : Moves c s u k h q) (o : Order) :
    Moves c s (replaceOrder c o u) { k with order := some o } h q := by
  unfold Machine.replaceOrder
  split
  · exact m.holdOrder o
  · exact (m.still (((((Still.refl u).noteEnd ..).postAt ..).reportGroup ..).reportLearning ..)).holdOrder o

/-- R100: with an order held, its end stops the channel; what comes before and after touches no motion. -/
theorem endOrderWith (m : Moves c s u k h q) (hk : k.order.isSome = true) (e : OrderEnd) (mo : Motion)
    {before after : State → State} (hb : ∀ v, Still v (before v)) (ha : ∀ v, Still v (after v)) :
    Moves c s (endOrderWith c e mo before after u)
      (stopped (braked u.clock.now (u.ch c).cal.brake k) mo) .none (q.filter (· ≠ c)) := by
  unfold Machine.endOrderWith
  split
  · next hn =>
    rw [m.moc] at hn
    rw [hn] at hk
    cases hk
  · exact (m.stopChannel mo).still
      (((((((Still.refl _).noteEnd ..).trans (hb _)).postAt ..).reportGroup ..).trans (ha _)).reportLearning ..)

theorem endReversalTo (m : Moves c s u k h q) (e : RevEnd) (mo : Motion) : Moves c s (endReversalTo c e mo u)
    (stopped (braked u.clock.now (u.ch c).cal.brake k) mo) .none (q.filter (· ≠ c)) :=
  (m.stopChannel mo).still ((((Still.refl _).noteEnd ..).postAt ..).reportGroupReversal ..)

theorem replaceReversal (m : Moves c s u k h q) (o : Order) (mo : Motion) :
    Moves c s (replaceReversal c o mo u) { k with motion := mo, revTarget := none, order := some o } h q :=
  ((m.updMoc _).still ((((Still.refl _).noteEnd ..).postAt ..).reportGroupReversal ..)).holdOrder o

theorem enterWaiting (m : Moves c s u k h q) (h' : Hold) : ∃ w, Moves c s (enterWaiting c h' u)
    { braked u.clock.now (u.ch c).cal.brake k with slot := false, motion := .waiting, wait := some w } h' q :=
  ⟨_, ((m.driveOff.releaseSlot).updMoc _).setHold _⟩

/-- R81: a drive-on of `c`. -/
theorem driveOn (m : Moves c s u k h q) (mo : Motion) (d : Dir) : ∃ w, Moves c s (driveOn c mo d u)
    { k with motion := mo, stall := some w, steps := 0 } h q := by
  have hrun := ((((Still.refl u).updHif c Hif.clearRun).updCtx c (LoadContext.startRun d)).dropTake c).blankNeighbours c
  exact ⟨_, ((m.still hrun).updMoc fun k => { k with motion := mo, stall := some _, steps := 0 }).still
    ((Still.refl _).of_chans rfl rfl rfl rfl)⟩

end Moves
end Sys2Proof.Machine
end

section
/-! The table of section 5.1, part 2: what keeps its rows. `Rows` is the table with at most one channel left out, the one
an action is busy with; `Turned` says that an operation moved one channel into a row and left the others in theirs. -/

namespace Sys2Proof.Machine

/-! ## The table with a channel left out -/

/-- `MotionTable` but for the agenda, with the row of channel `e`, if any, left out. -/
structure Rows (e : Option Chan) (s : State) : Prop where
  row : ∀ c, e ≠ some c → (s.ch c).moc.InRow (s.ch c).hold (c ∈ s.startQueue)
  nodup : s.startQueue.Nodup
  first : OpeningFirst s
  slots : s.slotCount ≤ s.glob.ns
  rest : s.ready = false → ∀ c, s.atRest c = true

theorem motionTable_iff {s : State} : MotionTable s ↔ Rows none s ∧ s.agenda = [] :=
  ⟨fun ⟨h1, h2, h3, h4, h5, h6⟩ => ⟨⟨fun c _ => h1 c, h2, h3, h4, h5⟩, h6⟩,
    fun ⟨⟨h1, h2, h3, h4, h5⟩, h6⟩ => ⟨fun c => h1 c nofun, h2, h3, h4, h5, h6⟩⟩

/-- The channel left out, once `c` is back in the table. -/
def without (c : Chan) (e : Option Chan) : Option Chan := if e = some c then none else e

@[simp] theorem without_none (c : Chan) : without c none = none := rfl
@[simp] theorem without_self (c : Chan) : without c (some c) = none := if_pos rfl
theorem without_ne {c : Chan} {e : Option Chan} (h : e ≠ some c) : without c e = e := if_neg h
theorem without_ne_self (c : Chan) (e : Option Chan) : without c e ≠ some c := by
  unfold without
  split
  · nofun
  · assumption

/-! ## Counting slots (R103, R104) -/

theorem slotCount_le {s t : State} (h : ∀ d, t.holdsSlot d = true → s.holdsSlot d = true) :
    t.slotCount ≤ s.slotCount :=
  (List.monotone_filter_right allChans h).length_le

theorem slotCount_le_succ {s t : State} {c : Chan} (h : ∀ d, d ≠ c → t.holdsSlot d = true → s.holdsSlot d = true) :
    t.slotCount ≤ s.slotCount + 1 := by
  have hsub : allChans.filter t.holdsSlot ⊆ c :: allChans.filter s.holdsSlot := by
    intro d hd
    obtain ⟨hmem, hslot⟩ := List.mem_filter.mp hd
    by_cases hdc : d = c
    · simp [hdc]
    · exact List.mem_cons_of_mem _ (List.mem_filter.mpr ⟨hmem, h d hdc hslot⟩)
  exact (List.subperm_of_subset (allChans_nodup.filter _) hsub).length_le

/-! ## Keeping the rows -/

namespace Rows
variable {e : Option Chan} {c : Chan} {s t : State} {k : Moc} {h : Hold} {q : List Chan}

theorem still (hr : Rows e s) (hs : Still s t) : Rows e t where
  row c hc := by rw [hs.moc, hs.hold, hs.queue]; exact hr.row c hc
  nodup := hs.queue ▸ hr.nodup
  first := by
    have ho : t.opens = s.opens := funext fun d => by simp only [State.opens, hs.moc]
    unfold OpeningFirst
    rw [hs.queue, ho]
    exact hr.first
  slots := by
    rw [hs.ns]
    exact (slotCount_le fun d hd => by simpa only [State.holdsSlot, hs.moc] using hd).trans hr.slots
  rest h0 c := by
    have := hr.rest (hs.ready ▸ h0) c
    simpa only [State.atRest, hs.moc] using this

/-- R76: before READY no channel has left IDLE or FAULT. -/
theorem ready (hr : Rows e s) (hi : (s.ch c).moc.motion ≠ .idle) (hf : (s.ch c).moc.motion ≠ .fault) :
    s.ready = true := by
  by_contra h0
  have := hr.rest (by simpa using h0) c
  simp [State.atRest, hi, hf] at this

theorem opens_congr {d : Chan} (hm : (t.ch d).moc.order.map Order.dir = (s.ch d).moc.order.map Order.dir) :
    t.opens d = s.opens d := by
  unfold State.opens
  cases ht : (t.ch d).moc.order <;> cases hs : (s.ch d).moc.order <;> simp_all

/-- One channel moves: what is asked of its new row, of the queue, of its slot, and of READY. -/
theorem moves (hr : Rows e s) (m : Moves c s t k h q) {e' : Option Chan}
    (he : ∀ d, d ≠ c → e = some d → e' = some d) (hrow : e' ≠ some c → k.InRow h (c ∈ q)) (hn : q.Nodup)
    (hf : OpeningFirst t) (hs : t.slotCount ≤ s.glob.ns)
    (hm : s.ready = true ∨ k.motion = .idle ∨ k.motion = .fault) : Rows e' t where
  row d hd := by
    by_cases hdc : d = c
    · subst hdc
      rw [m.moc, m.hold, m.queue]
      exact hrow hd
    · obtain ⟨hmoc, hhold⟩ := m.other d hdc
      have hmem : (d ∈ t.startQueue) = (d ∈ s.startQueue) := by rw [m.queue]; exact propext (m.mem_queue hdc)
      rw [hmoc, hhold, hmem]
      exact hr.row d fun hes => hd (he d hdc hes)
  nodup := m.queue ▸ hn
  first := hf
  slots := m.ns ▸ hs
  rest h0 d := by
    rw [m.ready] at h0
    by_cases hdc : d = c
    · subst hdc
      rcases hm with hm | hm | hm
      · rw [h0] at hm; cases hm
      · simp [State.atRest, m.moc, hm]
      · simp [State.atRest, m.moc, hm]
    · have := hr.rest h0 d
      simpa only [State.atRest, (m.other d hdc).1] using this

theorem slots_of_moves (hr : Rows e s) (m : Moves c s t k h q) (hs : k.slot = true → (s.ch c).moc.slot = true) :
    t.slotCount ≤ s.glob.ns := by
  refine (slotCount_le fun d hd => ?_).trans hr.slots
  unfold State.holdsSlot at hd ⊢
  by_cases hdc : d = c
  · subst hdc
    rw [m.moc] at hd
    exact hs hd
  · rwa [(m.other d hdc).1] at hd

/-- Without `c` the queue is what it was without `c`. -/
theorem queue_of_leave (hr : Rows e s) (m : Moves c s t k h q) (hq : c ∉ q) : q.Nodup ∧ OpeningFirst t := by
  have heq : q = s.startQueue.filter (· ≠ c) := by
    rw [← m.filter, List.filter_eq_self.mpr fun d hd => by simpa using fun hdc : d = c => hq (hdc ▸ hd)]
  refine ⟨heq ▸ hr.nodup.filter _, ?_⟩
  unfold OpeningFirst
  rw [m.queue, heq]
  refine (hr.first.sublist List.filter_sublist).imp_of_mem fun {a b} ha hb hab => ?_
  have ho {d : Chan} (hd : d ∈ s.startQueue.filter (· ≠ c)) : t.opens d = s.opens d :=
    opens_congr (by rw [(m.other d (by simpa using (List.mem_filter.mp hd).2)).1])
  rwa [ho ha, ho hb]

/-- A queue that stands, the direction of `c`'s order standing too. -/
theorem queue_of_stay (hr : Rows e s) (m : Moves c s t k h q) (hq : q = s.startQueue)
    (hd : k.order.map Order.dir = (s.ch c).moc.order.map Order.dir) : q.Nodup ∧ OpeningFirst t := by
  have ho : t.opens = s.opens := funext fun d => opens_congr (by
    by_cases hdc : d = c
    · subst hdc; rw [m.moc, hd]
    · rw [(m.other d hdc).1])
  refine ⟨hq ▸ hr.nodup, ?_⟩
  unfold OpeningFirst
  rw [m.queue, hq, ho]
  exact hr.first

/-- R105: where the opening class stands ahead, a joining channel keeps it so. -/
theorem openingFirst_join {s : State} {c : Chan}
    (hf : (s.startQueue.filter (· ≠ c)).Pairwise fun a b => s.opens b = true → s.opens a = true) :
    (joinStartQueue c s).startQueue.Pairwise fun a b => s.opens b = true → s.opens a = true := by
  change (if s.opens c then (s.startQueue.filter (· ≠ c)).takeWhile s.opens ++ [c] ++
      (s.startQueue.filter (· ≠ c)).dropWhile s.opens else s.startQueue.filter (· ≠ c) ++ [c]).Pairwise _
  generalize s.startQueue.filter (· ≠ c) = l at hf
  split
  · next hc =>
    rw [List.append_assoc, List.pairwise_append]
    refine ⟨hf.sublist (List.takeWhile_sublist _), ?_, fun a ha _ _ _ => List.mem_takeWhile_imp ha⟩
    exact List.pairwise_cons.mpr ⟨fun _ _ _ => hc, hf.sublist (List.dropWhile_sublist _)⟩
  · next hc =>
    refine List.pairwise_append.mpr ⟨hf, List.pairwise_singleton .., fun a _ b hb hopen => ?_⟩
    rw [List.mem_singleton.mp hb] at hopen
    exact absurd hopen hc

end Rows

/-! ## One channel turned into a row -/

/-- The operation moved `c` alone, and `c` is in a row after it. -/
structure Turned (e : Option Chan) (c : Chan) (s t : State) : Prop where
  rows : Rows (without c e) t
  moves : ∃ k h q, Moves c s t k h q

namespace Turned
variable {e : Option Chan} {c : Chan} {s t u : State} {k : Moc} {h : Hold} {q : List Chan}

theorem still (ht : Turned e c s t) (hs : Still t u) : Turned e c s u :=
  ⟨ht.rows.still hs, ht.moves.elim fun k ⟨h, q, m⟩ => ⟨k, h, q, m.still hs⟩⟩

theorem of_still (hr : Rows e s) (hs : Still s t) (he : e ≠ some c) : Turned e c s t :=
  ⟨by rw [without_ne he]; exact hr.still hs, _, _, _, (Moves.refl c s).still hs⟩

theorem without_of {d : Chan} (hd : d ≠ c) (he : e = some d) : without c e = some d := by
  rw [without_ne (by rw [he]; exact fun h => hd (Option.some.inj h)), he]

/-- A channel that is not queued after it. -/
theorem leave (hr : Rows e s) (m : Moves c s t k h q) (hq : c ∉ q) (hrow : k.InRow h False)
    (hs : k.slot = true → (s.ch c).moc.slot = true)
    (hm : s.ready = true ∨ k.motion = .idle ∨ k.motion = .fault) : Turned e c s t :=
  ⟨hr.moves m (fun _ hd he => without_of hd he) (fun _ => by rwa [eq_false hq]) (hr.queue_of_leave m hq).1
    (hr.queue_of_leave m hq).2 (hr.slots_of_moves m hs) hm, _, _, _, m⟩

/-- A channel that keeps its place and its direction. -/
theorem stay (hr : Rows e s) (m : Moves c s t k h q) (hq : q = s.startQueue)
    (hd : k.order.map Order.dir = (s.ch c).moc.order.map Order.dir) (hrow : k.InRow h (c ∈ s.startQueue))
    (hs : k.slot = true → (s.ch c).moc.slot = true)
    (hm : s.ready = true ∨ k.motion = .idle ∨ k.motion = .fault) : Turned e c s t :=
  ⟨hr.moves m (fun _ hd he => without_of hd he) (fun _ => by rwa [hq]) (hr.queue_of_stay m hq hd).1
    (hr.queue_of_stay m hq hd).2 (hr.slots_of_moves m hs) hm, _, _, _, m⟩

/-- R106: what a channel must hold to join the queue. -/
def Joinable (k : Moc) (h : Hold) : Prop :=
  k.order.isSome = true ∧ k.slot = false ∧ k.wait = none ∧ h = .none ∧ k.revTarget = none ∧ k.stall = none ∧
    k.fault = none

theorem join (hr : Rows e s) (m : Moves c s u k h q) (hk : Joinable k h) (hready : s.ready = true) :
    Turned e c s (joinStartQueue c u) := by
  obtain ⟨ho, hslot, hwait, hhold, hrev, hstall, hfault⟩ := hk
  obtain ⟨-, -, -, -, -, -, hmem, -⟩ := joinStartQueue_spec c u
  have mj := m.joinStartQueue
  have hopens : (joinStartQueue c u).opens = u.opens := funext fun d => Rows.opens_congr (by
    by_cases hdc : d = c
    · subst hdc; rw [mj.moc, m.moc]
    · rw [(mj.other d hdc).1, (m.other d hdc).1])
  have hopensS {d : Chan} (hd : d ≠ c) : u.opens d = s.opens d := Rows.opens_congr (by rw [(m.other d hd).1])
  have hfilter : u.startQueue.filter (· ≠ c) = s.startQueue.filter (· ≠ c) := by rw [m.queue, m.filter]
  have hfirst : OpeningFirst (joinStartQueue c u) := by
    unfold OpeningFirst
    rw [hopens]
    refine Rows.openingFirst_join ?_
    rw [hfilter]
    refine (hr.first.sublist List.filter_sublist).imp_of_mem fun {a b} ha hb hab => ?_
    rwa [hopensS (by simpa using (List.mem_filter.mp hb).2), hopensS (by simpa using (List.mem_filter.mp ha).2)]
  have hnodup : (joinStartQueue c u).startQueue.Nodup := by
    have hf : ((joinStartQueue c u).startQueue.filter (· ≠ c)).Nodup := by
      rw [mj.filter]; exact hr.nodup.filter _
    change (if u.opens c then (u.startQueue.filter (· ≠ c)).takeWhile u.opens ++ [c] ++
      (u.startQueue.filter (· ≠ c)).dropWhile u.opens else u.startQueue.filter (· ≠ c) ++ [c]).Nodup
    have hu : (u.startQueue.filter (· ≠ c)).Nodup := by rw [hfilter]; exact hr.nodup.filter _
    have hc : c ∉ u.startQueue.filter (· ≠ c) := by simp
    split
    · rw [List.append_assoc]
      refine (List.perm_middle (a := c)).nodup_iff.mpr ?_
      show (c :: (_ ++ List.dropWhile _ _)).Nodup
      rw [List.takeWhile_append_dropWhile]
      exact List.nodup_cons.mpr ⟨hc, hu⟩
    · exact (List.perm_append_singleton c _).nodup_iff.mpr (List.nodup_cons.mpr ⟨hc, hu⟩)
  refine ⟨hr.moves mj (fun _ hd he => without_of hd he) (fun _ => ?_) hnodup hfirst
    (hr.slots_of_moves mj fun hs => ?_) (.inl hready), _, _, _, mj⟩
  · exact (Moc.inRow_queued rfl).mpr ⟨ho, (hmem c).mpr (.inl rfl), hslot, hwait, hhold, hrev, hstall, hfault⟩
  · rw [show ({ k with motion := .queued } : Moc).slot = k.slot from rfl, hslot] at hs
    cases hs

end Turned

/-! ## Stopping a channel -/

section
variable (now b : Nat) (k : Moc)

@[simp] theorem braked_motion : (Moves.braked now b k).motion = k.motion := by unfold Moves.braked; split <;> rfl
@[simp] theorem braked_order : (Moves.braked now b k).order = k.order := by unfold Moves.braked; split <;> rfl
@[simp] theorem braked_slot : (Moves.braked now b k).slot = k.slot := by unfold Moves.braked; split <;> rfl
@[simp] theorem braked_wait : (Moves.braked now b k).wait = k.wait := by unfold Moves.braked; split <;> rfl
@[simp] theorem braked_revTarget : (Moves.braked now b k).revTarget = k.revTarget := by
  unfold Moves.braked; split <;> rfl
@[simp] theorem braked_fault : (Moves.braked now b k).fault = k.fault := by unfold Moves.braked; split <;> rfl

/-- R81: the stall timer does not run with the drive off. -/
def Moc.Driven (k : Moc) : Prop := k.stall.isSome = true → k.motion.drive.isSome = true

theorem braked_stall {k : Moc} (h : k.Driven) : (Moves.braked now b k).stall = none := by
  unfold Moves.braked
  split
  · rfl
  · next hd =>
    by_contra hs
    exact hd (h (Option.isSome_iff_ne_none.mpr hs))

end

namespace Turned
variable {e : Option Chan} {c : Chan} {s t u : State} {k : Moc} {h : Hold} {q : List Chan}

/-- R100: a stopped channel is in the row of IDLE, or of FAULT with its reason. -/
theorem inRow_stopped {now b : Nat} (hd : k.Driven) {mo : Motion}
    (hm : mo = .idle ∧ k.fault = none ∨ mo = .fault ∧ k.fault.isSome = true) :
    (Moves.stopped (Moves.braked now b k) mo).InRow .none False := by
  rcases hm with ⟨rfl, hf⟩ | ⟨rfl, hf⟩
  · exact (Moc.inRow_idle rfl).mpr ⟨rfl, id, rfl, rfl, rfl, rfl, braked_stall now b hd, by
      simpa [Moves.stopped] using hf⟩
  · exact (Moc.inRow_fault rfl).mpr ⟨rfl, id, rfl, rfl, rfl, rfl, braked_stall now b hd, by
      simpa [Moves.stopped] using hf⟩

theorem stopped (hr : Rows e s) (hd : k.Driven) {mo : Motion}
    (hm : mo = .idle ∧ k.fault = none ∨ mo = .fault ∧ k.fault.isSome = true) {now b : Nat}
    (m : Moves c s t (Moves.stopped (Moves.braked now b k) mo) .none (q.filter (· ≠ c))) : Turned e c s t :=
  leave hr m (by simp) (inRow_stopped hd hm) nofun (.inr (hm.imp And.left And.left))

end Turned

namespace Rows
variable {e : Option Chan} {c : Chan} {s t : State}

/-- A channel of the table has its drive on while its stall timer runs. -/
theorem driven (hr : Rows e s) (he : e ≠ some c) : (s.ch c).moc.Driven := (hr.row c he).drive

/-- A channel that holds an order has no fault reason. -/
theorem fault_of_order (hr : Rows e s) (he : e ≠ some c) (ho : (s.ch c).moc.order.isSome = true) :
    (s.ch c).moc.fault = none := by
  by_contra hf
  have hrow := hr.row c he
  have hm := hrow.2.2.2.2.2.2.2.1.mp (Option.isSome_iff_ne_none.mpr hf)
  have := hrow.1.mp ho
  simp [show (s.ch c).moc.motion = .fault from hm] at this

/-- R100: the end of an order keeps the table. -/
theorem endOrderWith (hr : Rows e s) (he : e ≠ some c) (o : OrderEnd) {before after : State → State}
    (hb : ∀ v, Still v (before v)) (ha : ∀ v, Still v (after v)) :
    Turned e c s (endOrderWith c o .idle before after s) := by
  by_cases hn : (s.ch c).moc.order = none
  · have : Machine.endOrderWith c o .idle before after s = s := by unfold Machine.endOrderWith; rw [hn]
    rw [this]
    exact .of_still hr (.refl s) he
  · have ho := Option.isSome_iff_ne_none.mpr hn
    exact .stopped hr (hr.driven he) (.inl ⟨rfl, hr.fault_of_order he ho⟩)
      ((Moves.refl c s).endOrderWith ho o .idle hb ha)

theorem endOrder (hr : Rows e s) (he : e ≠ some c) (o : OrderEnd) : Turned e c s (endOrder c o s) :=
  hr.endOrderWith he o .refl .refl

end Rows

/-- R100 from the middle of an action. -/
theorem Turned.endOrder {e : Option Chan} {c : Chan} {s u : State} {k : Moc} {h : Hold} {q : List Chan}
    (hr : Rows e s) (m : Moves c s u k h q) (hk : k.order.isSome = true) (hd : k.Driven) (hf : k.fault = none)
    (o : OrderEnd) : Turned e c s (Machine.endOrder c o u) :=
  .stopped hr hd (.inl ⟨rfl, hf⟩) (m.endOrderWith hk o .idle .refl .refl)

theorem Turned.endTarget {e : Option Chan} {c : Chan} {s u : State} {k : Moc} {h : Hold} {q : List Chan}
    (hr : Rows e s) (m : Moves c s u k h q) (hk : k.order.isSome = true) (hd : k.Driven) (hf : k.fault = none) :
    Turned e c s (Machine.endTarget c u) := by
  unfold Machine.endTarget
  split
  · next hn =>
    rw [m.moc] at hn
    rw [hn] at hk
    cases hk
  · split
    · exact .stopped hr hd (.inl ⟨rfl, hf⟩) (m.endOrderWith hk _ .idle (fun v => (Still.refl v).postAt ..) .refl)
    · exact .endOrder hr m hk hd hf _

namespace Rows
variable {e : Option Chan} {c : Chan} {s t : State}

theorem endTarget (hr : Rows e s) (he : e ≠ some c) : Turned e c s (Machine.endTarget c s) := by
  by_cases hn : (s.ch c).moc.order = none
  · have : Machine.endTarget c s = s := by unfold Machine.endTarget; rw [hn]
    rw [this]
    exact .of_still hr (.refl s) he
  · have ho := Option.isSome_iff_ne_none.mpr hn
    exact .endTarget hr (Moves.refl c s) ho (hr.driven he) (hr.fault_of_order he ho)

/-- R94: the end of a reversal keeps the table. -/
theorem endReversal (hr : Rows e s) (he : e ≠ some c) (hrev : s.inReversal c = true) (o : RevEnd) :
    Turned e c s (endReversalTo c o .idle s) := by
  refine .stopped hr (hr.driven he) (.inl ⟨rfl, ?_⟩) ((Moves.refl c s).endReversalTo o .idle)
  have hrow := hr.row c he
  have hm : (s.ch c).moc.motion = .brakingPinch ∨ (s.ch c).moc.motion = .reversing := by
    simpa [State.inReversal] using hrev
  rcases hm with hm | hm
  · obtain ⟨-, -, -, -, -, -, -, hf⟩ := (Moc.inRow_brakingPinch hm).mp hrow
    exact hf
  · obtain ⟨-, -, -, -, -, -, -, hf⟩ := (Moc.inRow_reversing hm).mp hrow
    exact hf

/-- R98: the entry into FAULT keeps the table. -/
theorem enterFaultWith (hr : Rows e s) (he : e ≠ some c) (r : FaultReason) {after : State → State}
    (ha : ∀ v, Still v (after v)) : Turned e c s (enterFaultWith c r after s) := by
  have hrow := hr.row c he
  have hdriven : ({ Moves.braked s.clock.now (s.ch c).cal.brake (s.ch c).moc with fault := some r } : Moc).Driven := by
    intro hs
    simp only [braked_stall _ _ (hr.driven he)] at hs
    cases hs
  have mf := ((Moves.refl c s).driveOff.updMoc fun k => { k with fault := some r }).still
    ((Still.refl _).postAt .channelFault c (s.ch c).hif.pos (natWord (faultCode (some r))))
  unfold Machine.enterFaultWith
  split
  · exact .of_still hr (ha s) he
  · next hnf =>
    split
    · exact .still (.stopped hr hdriven (.inr ⟨rfl, rfl⟩) (mf.endReversalTo .fault .fault)) (ha _)
    · next hnr =>
      split
      · next hord =>
        exact .stopped hr hdriven (.inr ⟨rfl, rfl⟩)
          (mf.endOrderWith (by simpa [State.hasOrder] using hord) .fault .fault .refl ha)
      · next hno =>
        have hidle : (s.ch c).moc.motion = .idle := by
          have h1 : ¬ ((s.ch c).moc.motion = .brakingPinch ∨ (s.ch c).moc.motion = .reversing) := by
            simpa [State.inReversal] using hnr
          have h2 := mt hrow.order.mpr (by simpa [State.hasOrder] using hno)
          revert hnf h1 h2
          cases (s.ch c).moc.motion <;> simp
        obtain ⟨h1, h2, h3, h4, h5, h6, h7, -⟩ := (Moc.inRow_idle hidle).mp hrow
        refine .still (.leave hr (mf.updMoc fun k => { k with motion := .fault }) h2 ?_ ?_ (.inr (.inr rfl))) (ha _)
        · exact (Moc.inRow_fault rfl).mpr ⟨by simpa using h1, id, by simpa using h3, by simpa using h4, h5,
            by simpa using h6, braked_stall _ _ (hr.driven he), rfl⟩
        · simp [h3]

theorem enterFault (hr : Rows e s) (he : e ≠ some c) (r : FaultReason) : Turned e c s (Machine.enterFault c r s) :=
  hr.enterFaultWith he r .refl

end Rows
end Sys2Proof.Machine
end

section
/-! The table of section 5.1, part 3: the installation of an order (R78) and the internal open of a leader (R148). -/

namespace Sys2Proof.Machine

section
variable {e : Option Chan} {c d : Chan} {s t u v : State} {k : Moc} {h : Hold} {q : List Chan} {o : Order}

/-! ## Before and after what leaves motion alone -/

theorem Moves.of_still_left (hs : Still s u) (m : Moves c u t k h q) : Moves c s t k h q :=
  ⟨m.moc, m.hold, fun d hd => ⟨(m.other d hd).1.trans (hs.moc d), (m.other d hd).2.trans (hs.hold d)⟩, m.queue,
    m.filter.trans (by rw [hs.queue]), m.ns.trans hs.ns, m.ready.trans hs.ready⟩

theorem Turned.of_still_left (hs : Still s u) (ht : Turned e c u t) : Turned e c s t := by
  obtain ⟨hrows, k, h, q, m⟩ := ht
  exact ⟨hrows, k, h, q, m.of_still_left hs⟩

theorem Turned.ready (ht : Turned e c s t) : t.ready = s.ready := by
  obtain ⟨-, k, h, q, m⟩ := ht
  exact m.ready

/-- A table whole but for one channel that has come back. -/
theorem Turned.whole (ht : Turned none c s t) : Rows none t := ht.rows
theorem Turned.back (ht : Turned (some c) c s t) : Rows none t := by
  have hrows := ht.rows
  rwa [without_self] at hrows

theorem Rows.except (hr : Rows none s) (c : Chan) : Rows (some c) s :=
  ⟨fun d _ => hr.row d nofun, hr.nodup, hr.first, hr.slots, hr.rest⟩

theorem Rows.close (hr : Rows (some c) s) (hrow : (s.ch c).moc.InRow (s.ch c).hold (c ∈ s.startQueue)) : Rows none s := by
  refine ⟨fun d _ => ?_, hr.nodup, hr.first, hr.slots, hr.rest⟩
  by_cases hd : d = c
  · subst hd
    exact hrow
  · exact hr.row d fun h => hd (Option.some.inj h).symm

/-! ## The row of a channel by its motion -/

theorem Rows.not_queued (hr : Rows e s) (he : e ≠ some c) (hm : (s.ch c).moc.motion ≠ .queued) : c ∉ s.startQueue :=
  mt (hr.row c he).2.1.mp hm

theorem Moc.InRow.of_not_queued (hrow : k.InRow h (c ∈ q)) (hq : c ∉ q) : k.InRow h False := by rwa [eq_false hq] at hrow

theorem Moc.driven_of_none (hs : k.stall = none) : k.Driven := fun h => by
  rw [hs] at h
  cases h

/-! ## Installation by motion (R78) -/

/-- R78 for an IDLE channel. -/
theorem Rows.installBasic_idle (hr : Rows e u) (he : e ≠ some c) (hready : u.ready = true) (hm : (u.ch c).moc.motion = .idle) :
    Turned e c u (installBasic c o u) := by
  obtain ⟨-, -, hslot, hwait, hhold, hrev, hstall, hfault⟩ := (Moc.inRow_idle hm).mp (hr.row c he)
  have mh := (Moves.refl c u).holdOrder o
  cases ht : atTarget o.dir o.target (u.ch c).hif.pos with
  | false =>
    rw [installBasic_of_idle hm ht]
    exact (Turned.join hr mh ⟨rfl, hslot, hwait, hhold, hrev, hstall, hfault⟩ hready).still ((Still.refl _).noteMoved c)
  | true =>
    rw [installBasic_of_idle_at_target hm ht]
    refine Turned.still ?_ ((Still.refl _).noteMoved c)
    split
    · exact Turned.join hr (mh.updMoc _) ⟨rfl, hslot, hwait, hhold, hrev, hstall, hfault⟩ hready
    · exact Turned.endTarget hr mh rfl (Moc.driven_of_none hstall) hfault

theorem dir_eq_of_opens {a b : Dir} (h : decide (a = .opening) = decide (b = .opening)) : a = b := by
  cases a <;> cases b <;> simp_all

/-- R78 for a QUEUED channel: the place stays, or is taken anew in the other class. -/
theorem Rows.installBasic_queued (hr : Rows e u) (he : e ≠ some c) (hready : u.ready = true) (hm : (u.ch c).moc.motion = .queued) :
    Turned e c u (installBasic c o u) := by
  obtain ⟨ho, hq, hslot, hwait, hhold, hrev, hstall, hfault⟩ := (Moc.inRow_queued hm).mp (hr.row c he)
  obtain ⟨held, ho⟩ := Option.isSome_iff_exists.mp ho
  have mr := (Moves.refl c u).replaceOrder o
  by_cases hd : u.opens c = decide (o.dir = .opening)
  · rw [installBasic_of_queued_same hm hd]
    have hdir : held.dir = o.dir := by
      rw [State.opens, ho] at hd
      exact dir_eq_of_opens hd
    refine (Turned.stay hr mr rfl ?_ ?_ (fun hs => hs) (.inl hready)).still ((Still.refl _).noteMoved c)
    · rw [ho]
      exact congrArg some hdir.symm
    · exact (Moc.inRow_queued (m := { (u.ch c).moc with order := some o }) hm).mpr ⟨rfl, hq, hslot, hwait, hhold, hrev, hstall, hfault⟩
  · rw [installBasic_of_queued_other hm hd]
    exact (Turned.join hr mr ⟨rfl, hslot, hwait, hhold, hrev, hstall, hfault⟩ hready).still ((Still.refl _).noteMoved c)

theorem Rows.installBasic_braking (hr : Rows e u) (he : e ≠ some c) (hready : u.ready = true)
    (hm : (u.ch c).moc.motion = .brakingOrder) : Turned e c u (installBasic c o u) := by
  obtain ⟨-, hq, hslot, hwait, hhold, hrev, hstall, hfault⟩ := (Moc.inRow_brakingOrder hm).mp (hr.row c he)
  rw [installBasic_of_braking hm]
  exact (Turned.leave hr ((Moves.refl c u).replaceOrder o) hq
    ((Moc.inRow_brakingOrder (m := { (u.ch c).moc with order := some o }) hm).mpr ⟨rfl, id, hslot, hwait, hhold, hrev, hstall, hfault⟩) id (.inl hready)).still
      ((Still.refl _).noteMoved c)

/-- The rows of CLOSING and OPENING, in one. -/
theorem Moc.inRow_drive {d : Dir} {Q : Prop} (hm : k.motion = d.motion) : k.InRow h Q ↔
    k.order.isSome = true ∧ ¬Q ∧ k.slot = true ∧ k.wait = none ∧ h = .none ∧ k.revTarget = none ∧
      k.stall.isSome = true ∧ k.fault = none ∧ k.order.map Order.dir = some d := by
  cases d with
  | closing => exact Moc.inRow_closing hm
  | opening => exact Moc.inRow_opening hm

theorem driven_of_dir {d : Dir} (hm : k.motion = d.motion) : k.motion.drive.isSome = true := by
  rw [hm]
  cases d <;> rfl

/-- R78 under a drive of the order held: the drive goes on or the channel brakes. -/
theorem Rows.installBasic_drive (hr : Rows e u) (he : e ≠ some c) (hready : u.ready = true) {d : Dir}
    (hm : (u.ch c).moc.motion = d.motion) : Turned e c u (installBasic c o u) := by
  obtain ⟨-, hq, hslot, hwait, hhold, hrev, hstall, hfault, -⟩ := (Moc.inRow_drive hm).mp (hr.row c he)
  have mr := (Moves.refl c u).replaceOrder o
  by_cases hd : o.dir = d
  · have hsame : installBasic c o u = noteMoved c (replaceOrder c o u) := by
      subst hd
      refine installBasic_of_drive_same ?_
      revert hm
      cases o.dir <;> simp [Dir.motion]
    rw [hsame]
    exact (Turned.leave hr mr hq ((Moc.inRow_drive (k := { (u.ch c).moc with order := some o }) hm).mpr
      ⟨rfl, id, hslot, hwait, hhold, hrev, hstall, hfault, congrArg some hd⟩) id (.inl hready)).still ((Still.refl _).noteMoved c)
  · have hother : installBasic c o u = noteMoved c (updMoc c (fun k => { k with motion := .brakingOrder })
        (driveOff c (replaceOrder c o u))) := by
      refine installBasic_of_drive_other ?_
      revert hm hd
      cases d <;> cases o.dir <;> simp [Dir.motion]
    rw [hother]
    refine (Turned.leave hr (mr.driveOff.updMoc fun k => { k with motion := .brakingOrder }) hq
      ((Moc.inRow_brakingOrder rfl).mpr ⟨?_, id, ?_, ?_, hhold, ?_, braked_stall _ _ fun _ => driven_of_dir hm, ?_⟩) (fun hs => ?_)
      (.inl hready)).still ((Still.refl _).noteMoved c)
    · simp
    · simpa using hslot
    · simpa using hwait
    · simpa using hrev
    · simpa using hfault
    · exact hslot

/-- R95: an order replaces the reversal; in REVERSING an open, whose drive stays on. -/
theorem Rows.installBasic_reversal (hr : Rows e u) (he : e ≠ some c) (hready : u.ready = true)
    (hm : (u.ch c).moc.motion = .brakingPinch ∨ (u.ch c).moc.motion = .reversing ∧ o.dir = .opening) :
    Turned e c u (installBasic c o u) := by
  have mr (mo : Motion) := (Moves.refl c u).replaceReversal o mo
  rcases hm with hm | ⟨hm, hd⟩
  · obtain ⟨-, hq, hslot, hwait, hhold, -, hstall, hfault⟩ := (Moc.inRow_brakingPinch hm).mp (hr.row c he)
    rw [installBasic_of_pinch hm]
    exact (Turned.leave hr (mr .brakingOrder) hq ((Moc.inRow_brakingOrder rfl).mpr
      ⟨rfl, id, hslot, hwait, hhold, rfl, hstall, hfault⟩) (fun _ => hslot) (.inl hready)).still ((Still.refl _).noteMoved c)
  · obtain ⟨-, hq, hslot, hwait, hhold, -, hstall, hfault⟩ := (Moc.inRow_reversing hm).mp (hr.row c he)
    rw [installBasic_of_reversing hm]
    exact (Turned.leave hr (mr .opening) hq ((Moc.inRow_opening rfl).mpr
      ⟨rfl, id, hslot, hwait, hhold, rfl, hstall, hfault, congrArg some hd⟩) (fun _ => hslot) (.inl hready)).still
        ((Still.refl _).noteMoved c)

/-- R78: an installation on a channel that does not wait leaves it in a row; AUT lets no close meet a reversal (R119). -/
theorem Rows.installBasic (hr : Rows e u) (he : e ≠ some c) (hready : u.ready = true) (hw : (u.ch c).moc.motion ≠ .waiting)
    (hrev : (u.ch c).moc.motion = .reversing → o.dir = .opening) : Turned e c u (installBasic c o u) := by
  cases hm : (u.ch c).moc.motion with
  | idle => exact hr.installBasic_idle he hready hm
  | queued => exact hr.installBasic_queued he hready hm
  | brakingOrder => exact hr.installBasic_braking he hready hm
  | closing => exact hr.installBasic_drive (d := .closing) he hready hm
  | opening => exact hr.installBasic_drive (d := .opening) he hready hm
  | brakingPinch => exact hr.installBasic_reversal he hready (.inl hm)
  | reversing => exact hr.installBasic_reversal he hready (.inr ⟨hm, hrev hm⟩)
  | waiting => exact absurd hm hw
  | fault =>
    rw [installBasic_of_fault hm]
    exact .of_still hr ((Still.refl u).noteMoved c) he

/-- R150: in WAITING the order is held and the wait dropped; GRP decides. -/
theorem moves_installBasic_waiting (hm : (u.ch c).moc.motion = .waiting) : Moves c u (Machine.installBasic c o u)
    { (u.ch c).moc with order := some o, wait := none } .none u.startQueue := by
  rw [installBasic_of_waiting hm]
  exact ((((Moves.refl c u).replaceOrder o).updMoc _).setHold .none).still ((Still.refl _).noteMoved c)

/-- R148: an internal open leaves the follower in a row. -/
theorem Rows.installInternal (hr : Rows e u) (he : e ≠ some c) (hready : u.ready = true) (hd : o.dir = .opening) :
    Turned e c u (installInternal c o u) := by
  have hstill := (Still.refl u).clearOverride c
  have hrows := hr.still hstill
  have hmoc : ((clearOverride c u).ch c).moc = (u.ch c).moc := hstill.moc c
  unfold Machine.installInternal
  dsimp only
  split
  · next hw =>
    have m := (moves_installBasic_waiting (o := u.normalized c o) (u := clearOverride c u) (by rw [hmoc]; exact hw)).of_still_left hstill
    obtain ⟨-, -, hslot, -, -, hrev, hstall, hfault⟩ := (Moc.inRow_waiting hw).mp (hr.row c he)
    refine Turned.join hr m ⟨rfl, ?_, rfl, rfl, ?_, ?_, ?_⟩ hready <;> rw [hmoc] <;> assumption
  · next hw =>
    exact (hrows.installBasic (o := u.normalized c o) he (hstill.ready.trans hready) (by rwa [hmoc]) fun _ => hd).of_still_left hstill

end

end Sys2Proof.Machine
end

section
/-! The table of section 5.1, part 4: the gate (R147), the drive-on (R84, R110), grants (R109), resumption (R151, R152), and what
an action leaves to be done. -/

namespace Sys2Proof.Machine

section
variable {e : Option Chan} {c d p f : Chan} {s t u v : State} {k : Moc} {h : Hold} {q : List Chan} {o : Order}

/-! ## A channel between two rows -/

/-- Channel `c` holds an order and neither waits nor is queued: a drive, a wait, the queue or the end of the order can follow. -/
structure Poised (c : Chan) (u : State) : Prop where
  order : (u.ch c).moc.order.isSome = true
  wait : (u.ch c).moc.wait = none
  hold : (u.ch c).hold = .none
  rev : (u.ch c).moc.revTarget = none
  fault : (u.ch c).moc.fault = none
  driven : (u.ch c).moc.Driven
  queue : c ∉ u.startQueue

/-- Channel `c` is in `v` as in `u`, and READY is. -/
structure Untouched (c : Chan) (u v : State) : Prop where
  moc : (v.ch c).moc = (u.ch c).moc
  hold : (v.ch c).hold = (u.ch c).hold
  queue : c ∈ v.startQueue ↔ c ∈ u.startQueue
  ready : v.ready = u.ready

theorem Untouched.refl (c : Chan) (u : State) : Untouched c u u := ⟨rfl, rfl, .rfl, rfl⟩

theorem Still.untouched (hs : Still u v) (c : Chan) : Untouched c u v :=
  ⟨hs.moc c, hs.hold c, by rw [hs.queue], hs.ready⟩

theorem Moves.untouched (m : Moves d u v k h q) (hc : c ≠ d) : Untouched c u v :=
  ⟨(m.other c hc).1, (m.other c hc).2, by rw [m.queue, m.mem_queue hc], m.ready⟩

theorem Turned.untouched (ht : Turned e d u v) (hc : c ≠ d) : Untouched c u v := by
  obtain ⟨-, k, h, q, m⟩ := ht
  exact m.untouched hc

theorem Poised.of_untouched (hp : Poised c u) (hv : Untouched c u v) : Poised c v := by
  obtain ⟨h1, h2, h3, h4, h5, h6, h7⟩ := hp
  rw [← hv.moc] at h1 h2 h4 h5 h6
  exact ⟨h1, h2, hv.hold.trans h3, h4, h5, h6, mt hv.queue.mp h7⟩

theorem Untouched.row (hv : Untouched c u v) (hrow : (u.ch c).moc.InRow (u.ch c).hold (c ∈ u.startQueue)) :
    (v.ch c).moc.InRow (v.ch c).hold (c ∈ v.startQueue) := by
  rw [hv.moc, hv.hold, propext hv.queue]
  exact hrow

theorem Rows.poised (hr : Rows e u) (he : e ≠ some c) (hm : (u.ch c).moc.motion = .brakingOrder ∨ (u.ch c).moc.motion = .closing ∨
    (u.ch c).moc.motion = .opening) : Poised c u := by
  have hrow := hr.row c he
  rcases hm with hm | hm | hm
  · obtain ⟨ho, hq, -, hwait, hhold, hrev, -, hfault⟩ := (Moc.inRow_brakingOrder hm).mp hrow
    exact ⟨ho, hwait, hhold, hrev, hfault, hr.driven he, hq⟩
  · obtain ⟨ho, hq, -, hwait, hhold, hrev, -, hfault, -⟩ := (Moc.inRow_closing hm).mp hrow
    exact ⟨ho, hwait, hhold, hrev, hfault, hr.driven he, hq⟩
  · obtain ⟨ho, hq, -, hwait, hhold, hrev, -, hfault, -⟩ := (Moc.inRow_opening hm).mp hrow
    exact ⟨ho, hwait, hhold, hrev, hfault, hr.driven he, hq⟩

/-! ## What can follow -/

/-- The table but for `c`, which is between two rows, after READY. -/
structure Between (c : Chan) (u : State) : Prop where
  rows : Rows (some c) u
  poised : Poised c u
  ready : u.ready = true

namespace Between

theorem endOrder (h : Between c u) (x : OrderEnd) : Rows none (endOrder c x u) :=
  (Turned.endOrder h.rows (Moves.refl c u) h.poised.order h.poised.driven h.poised.fault x).back

theorem endTarget (h : Between c u) : Rows none (endTarget c u) :=
  (Turned.endTarget h.rows (Moves.refl c u) h.poised.order h.poised.driven h.poised.fault).back

/-- R150: it waits. -/
theorem enterWaiting (h : Between c u) {x : Hold} (hx : x ≠ .none) : Rows none (enterWaiting c x u) := by
  obtain ⟨ho, -, -, hrev, hfault, hdriven, hq⟩ := h.poised
  obtain ⟨w, m⟩ := (Moves.refl c u).enterWaiting x
  refine (Turned.leave h.rows m hq ((Moc.inRow_waiting rfl).mpr ⟨?_, id, rfl, rfl, hx, ?_, braked_stall _ _ hdriven, ?_⟩) nofun
    (.inl h.ready)).back
  · simpa using ho
  · simpa using hrev
  · simpa using hfault

/-- R81: its drive turns on in the slot it holds. -/
theorem driveOn (h : Between c u) (hslot : (u.ch c).moc.slot = true) (ho : (u.ch c).moc.order = some o) :
    Rows none (driveOn c o.dir.motion o.dir u) := by
  obtain ⟨horder, hwait, hhold, hrev, hfault, hdriven, hq⟩ := h.poised
  obtain ⟨w, m⟩ := (Moves.refl c u).driveOn o.dir.motion o.dir
  exact (Turned.leave h.rows m hq ((Moc.inRow_drive rfl).mpr
    ⟨horder, id, hslot, hwait, hhold, hrev, rfl, hfault, by rw [ho]; rfl⟩) (fun _ => hslot) (.inl h.ready)).back

/-- R106: without a slot it joins the queue. -/
theorem joinStartQueue (h : Between c u) (hslot : (u.ch c).moc.slot = false) (hstall : (u.ch c).moc.stall = none) :
    Rows none (joinStartQueue c u) :=
  (Turned.join h.rows (Moves.refl c u) ⟨h.poised.order, hslot, h.poised.wait, h.poised.hold, h.poised.rev, hstall, h.poised.fault⟩
    h.ready).back

/-- Other channels may have moved between rows. -/
theorem of_untouched (h : Between c u) (hr : Rows (some c) v) (hv : Untouched c u v) : Between c v :=
  ⟨hr, h.poised.of_untouched hv, hv.ready.trans h.ready⟩

end Between

theorem Rows.between (hr : Rows none u) (hready : u.ready = true) (hm : (u.ch c).moc.motion = .brakingOrder ∨
    (u.ch c).moc.motion = .closing ∨ (u.ch c).moc.motion = .opening) : Between c u :=
  ⟨hr.except c, hr.poised nofun hm, hready⟩

/-! ## The gate (R147) -/

/-- R147: a channel with an open order that is not IDLE is not opened. -/
theorem not_openable (ho : (u.ch c).moc.order = some o) (hd : o.dir = .opening) (hm : (u.ch c).moc.motion ≠ .idle) :
    u.openable c = false := by
  have hclose : u.holdsClose c = false := by
    unfold State.holdsClose
    rw [ho]
    simp [hd]
  unfold State.openable
  rw [hclose]
  cases h : (u.ch c).moc.motion with
  | idle => exact absurd h hm
  | _ => rfl

/-- What the gate test does to the follower, if anything. -/
theorem gateTest_cases (p f : Chan) (o : Order) (u : State) : (gateTest p f o u).2 = u ∨
    u.openable f = true ∧ (gateTest p f o u).1 ≠ .pass ∧
      (gateTest p f o u).2 = installInternal f (internalOpen p o u.clock.ms) u := by
  unfold gateTest
  split
  · exact .inl rfl
  · split
    · exact .inl rfl
    · split
      · next hopen =>
        dsimp only
        split
        · exact .inl rfl
        · refine .inr ⟨hopen, ?_, rfl⟩
          unfold afterInternal
          dsimp only
          split <;> decide
      · exact .inl rfl

/-- R147, R148: the test leaves its leader, an open order of which it tests, untouched. -/
theorem Between.gateTest (h : Between p u) (ho : (u.ch p).moc.order = some o) (hd : o.dir = .opening)
    (hm : (u.ch p).moc.motion ≠ .idle) (f : Chan) : Rows (some p) (gateTest p f o u).2 ∧ Untouched p u (gateTest p f o u).2 := by
  rcases gateTest_cases p f o u with heq | ⟨hopen, -, heq⟩ <;> rw [heq]
  · exact ⟨h.rows, .refl p u⟩
  · have hne : p ≠ f := by
      rintro rfl
      rw [not_openable ho hd hm] at hopen
      cases hopen
    have ht := h.rows.installInternal (c := f) (o := internalOpen p o u.clock.ms) (fun e => hne (Option.some.inj e)) h.ready rfl
    have hrows := ht.rows
    rw [without_ne fun e => hne (Option.some.inj e)] at hrows
    exact ⟨hrows, ht.untouched hne⟩

theorem Rows.gateTest (hr : Rows none u) (hready : u.ready = true) (p f : Chan) (o : Order) : Rows none (gateTest p f o u).2 := by
  rcases gateTest_cases p f o u with heq | ⟨-, -, heq⟩ <;> rw [heq]
  · exact hr
  · exact (hr.installInternal nofun hready rfl).whole

/-- R146: what a gate test gives, where `passed` is known to bring the channel back into a row. -/
theorem Between.throughGate (h : Between p u) (ho : (u.ch p).moc.order = some o) (hd : o.dir = .opening)
    (hm : (u.ch p).moc.motion ≠ .idle) {passed : State → State} (due : Option Chan)
    (hpass : ∀ v, Between p v → Untouched p u v → Rows none (passed v)) : Rows none (throughGate p o passed due u) := by
  unfold Machine.throughGate
  split
  · exact hpass u h (.refl p u)
  · next f =>
    obtain ⟨hrows, hun⟩ := h.gateTest ho hd hm f
    have hv := h.of_untouched hrows hun
    split <;> rename_i v heq <;> rw [heq] at hv hun
    · exact hpass v hv hun
    · exact hv.enterWaiting nofun
    · exact hv.endOrder _

/-- A channel that left its row, and is not queued. -/
theorem Rows.off_row (hr : Rows e s) (he : ∀ d, d ≠ c → e ≠ some d) (m : Moves c s t k h q) (hq : c ∉ q)
    (hslot : k.slot = true → (s.ch c).moc.slot = true) (hready : s.ready = true) : Rows (some c) t :=
  hr.moves m (fun d hd hed => absurd hed (he d hd)) (fun hc => absurd rfl hc) (hr.queue_of_leave m hq).1 (hr.queue_of_leave m hq).2
    (hr.slots_of_moves m hslot) (.inl hready)

/-! ## Turning on (R84, R110) -/

/-- R84, R110: a channel with a slot takes its drive, waits, or ends. -/
theorem Between.driveGated (h : Between c u) (hslot : (u.ch c).moc.slot = true) (hm : (u.ch c).moc.motion ≠ .idle) :
    Rows none (driveGated c u) := by
  obtain ⟨o, ho⟩ := Option.isSome_iff_exists.mp h.poised.order
  unfold Machine.driveGated
  rw [ho]
  dsimp only
  split
  · next hd =>
    refine h.throughGate ho hd hm _ fun v hv hun => ?_
    have hon := hv.driveOn (o := o) (by rw [hun.moc]; exact hslot) (by rw [hun.moc]; exact ho)
    rwa [hd] at hon
  · next hd =>
    split
    · exact h.enterWaiting nofun
    · have hon := h.driveOn hslot ho
      rwa [hd] at hon

theorem Between.startDrive (h : Between c u) (hslot : (u.ch c).moc.slot = true) (hm : (u.ch c).moc.motion ≠ .idle) :
    Rows none (startDrive c u) := by
  obtain ⟨o, ho⟩ := Option.isSome_iff_exists.mp h.poised.order
  unfold Machine.startDrive
  rw [ho]
  dsimp only
  split
  · split
    · have mp := (Moves.refl c u).updMoc fun k => { k with order := k.order.map fun o =>
        { o with dir := .closing, target := .toEnd, phase := .refClosing } }
      obtain ⟨horder, hwait, hhold, hrev, hfault, hdriven, hq⟩ := h.poised
      have hpoised : Poised c (changePhase c u) :=
        ⟨by rw [changePhase, mp.moc, ho]; rfl, by rw [changePhase, mp.moc]; exact hwait, mp.hold.trans hhold,
          by rw [changePhase, mp.moc]; exact hrev, by rw [changePhase, mp.moc]; exact hfault,
          by rw [changePhase, mp.moc]; exact hdriven, hq⟩
      have hrows : Rows (some c) (changePhase c u) := h.rows.off_row (fun d hd he => hd (Option.some.inj he).symm) mp hq id h.ready
      exact Between.driveGated ⟨hrows, hpoised, h.ready⟩ (by rw [changePhase, mp.moc]; exact hslot)
        (by rw [changePhase, mp.moc]; exact hm)
    · exact h.endTarget
  · exact h.driveGated hslot hm

/-! ## Grants (R109) -/

/-- R104, R109: the slot that a grant gives is free. -/
theorem Rows.granted (hr : Rows none u) (hfree : u.slotCount < u.glob.ns) (hmem : c ∈ u.startQueue) :
    Between c (u.granted c) ∧ ((u.granted c).ch c).moc.slot = true ∧ ((u.granted c).ch c).moc.motion ≠ .idle := by
  have hqueued : (u.ch c).moc.motion = .queued := (hr.row c nofun).2.1.mp hmem
  obtain ⟨ho, -, -, hwait, hhold, hrev, hstall, hfault⟩ := (Moc.inRow_queued hqueued).mp (hr.row c nofun)
  have hready : u.ready = true := hr.ready (c := c) (by rw [hqueued]; decide) (by rw [hqueued]; decide)
  have m : Moves c u (u.granted c) { (u.ch c).moc with slot := true } (u.ch c).hold (u.startQueue.filter (· ≠ c)) :=
    (Moves.refl c u).leaveQueue.updMoc fun k => { k with slot := true }
  generalize u.granted c = v at m ⊢
  have hq : c ∉ u.startQueue.filter (· ≠ c) := by simp
  have hslots : v.slotCount ≤ u.glob.ns := by
    refine (slotCount_le_succ (c := c) fun d hd hs => ?_).trans hfree
    unfold State.holdsSlot at hs ⊢
    rwa [(m.other d hd).1] at hs
  have hrows : Rows (some c) v := hr.moves m (fun _ _ he => nomatch he) (fun he => absurd rfl he) (hr.queue_of_leave m hq).1
    (hr.queue_of_leave m hq).2 hslots (.inl hready)
  have hpoised : Poised c v := ⟨by rw [m.moc]; exact ho, by rw [m.moc]; exact hwait, m.hold.trans hhold, by rw [m.moc]; exact hrev,
    by rw [m.moc]; exact hfault, by rw [m.moc]; exact Moc.driven_of_none hstall, by rw [m.queue]; exact hq⟩
  refine ⟨⟨hrows, hpoised, m.ready.trans hready⟩, by rw [m.moc], ?_⟩
  rw [m.moc]
  show (u.ch c).moc.motion ≠ .idle
  rw [hqueued]
  decide

theorem Rows.grantTest (hr : Rows none u) : Rows none (grantTest u) := by
  unfold Machine.grantTest
  split
  · next hfree =>
    split
    · next c hc =>
      obtain ⟨hb, hslot, hm⟩ := hr.granted hfree.1 (List.mem_of_find?_eq_some hc)
      exact hb.startDrive hslot hm
    · exact hr
  · exact hr

/-! ## Resumption (R151, R152) -/

theorem Rows.resume (hr : Rows none u) (hm : (u.ch c).moc.motion = .waiting) : Rows none (resume c u) := by
  obtain ⟨ho, -, hslot, -, -, hrev, hstall, hfault⟩ := (Moc.inRow_waiting hm).mp (hr.row c nofun)
  have hready : u.ready = true := hr.ready (c := c) (by rw [hm]; decide) (by rw [hm]; decide)
  exact (Turned.join hr (((Moves.refl c u).updMoc fun k => { k with wait := none }).setHold .none)
    ⟨ho, hslot, rfl, rfl, hrev, hstall, hfault⟩ hready).whole

theorem Rows.leaderAfterEnd (hr : Rows none u) (c : Chan) (own : Option Chan) (ok : Bool) (p : Chan) :
    Rows none (leaderAfterEnd c own ok u p) := by
  unfold Machine.leaderAfterEnd
  split
  · next hwait =>
    have hm : (u.ch p).moc.motion = .waiting := by
      simp only [State.waitsOn, Bool.and_eq_true, decide_eq_true_eq] at hwait
      exact hwait.1.1
    have hready : u.ready = true := hr.ready (c := p) (by rw [hm]; decide) (by rw [hm]; decide)
    split
    · split
      · exact hr.resume hm
      · exact (hr.endOrder nofun _).whole
    · split
      · exact (hr.endOrder nofun _).whole
      · split
        · exact hr
        · next o _ =>
          have hg := hr.gateTest hready p c o
          split <;> rename_i v heq
          · have hv : v = u := by
              rcases gateTest_cases p c o u with hsame | ⟨-, hne, -⟩
              · rw [← hsame, heq]
              · rw [heq] at hne
                exact absurd rfl hne
            rw [hv]
            exact hr.resume hm
          · rwa [heq] at hg
          · rw [heq] at hg
            exact (hg.endOrder nofun _).whole
  · exact hr

theorem Rows.leaderAfterMove (hr : Rows none u) (c p : Chan) : Rows none (leaderAfterMove c u p) := by
  unfold Machine.leaderAfterMove
  split
  · next hwait =>
    refine hr.resume ?_
    simp only [State.waitsOn, Bool.and_eq_true, decide_eq_true_eq] at hwait
    exact hwait.1.1.1.1
  · exact hr

theorem Rows.followerAfter (hr : Rows none u) (c : Chan) : Rows none (followerAfter c u) := by
  unfold Machine.followerAfter
  split
  · next hwait => exact hr.resume hwait.1
  · exact hr

theorem Rows.foldl {α : Type} {g : State → α → State} (hg : ∀ {v} a, Rows e v → Rows e (g v a)) (l : List α) (hr : Rows e u) :
    Rows e (l.foldl g u) := by
  induction l generalizing u with
  | nil => exact hr
  | cons a l ih => exact ih (hg a hr)

/-- What an action leaves to be done keeps the table. -/
theorem Rows.settle (hr : Rows none u) : Rows none (settle u) := by
  refine settle_induct (fun v a hv => hv.still ((Still.refl v).of_chans rfl rfl rfl rfl)) (fun t v hv => ?_) hr
  cases t with
  | grantTest => exact hv.grantTest
  | orderEnded d waiters own ok => exact Rows.foldl (fun p hw => hw.leaderAfterEnd d own ok p) waiters hv
  | moved d waiters => exact Rows.foldl (fun p hw => hw.leaderAfterMove d p) waiters hv
  | followerTest d => exact hv.followerAfter d

end

end Sys2Proof.Machine
end

section
/-! The table of section 5.1, part 5: orders handed over (R120), pinches, stalls and expiries (R84 to R93), Hall steps (R85), the
completions of LDE (R47) and the supply (R25). -/

namespace Sys2Proof.Machine

section
variable {e : Option Chan} {c d p f : Chan} {s t u v : State} {k k' : Moc} {h : Hold} {q : List Chan} {o : Order}

/-! ## Changes that the table does not see -/

/-- Two parts of MOC that the table does not tell apart. -/
structure Moc.Alike (k k' : Moc) : Prop where
  motion : k'.motion = k.motion
  order : k'.order.map Order.dir = k.order.map Order.dir
  slot : k'.slot = k.slot
  wait : k'.wait.isSome = k.wait.isSome
  rev : k'.revTarget.isSome = k.revTarget.isSome
  stall : k'.stall.isSome = k.stall.isSome
  fault : k'.fault.isSome = k.fault.isSome

theorem Moc.Alike.inRow (ha : Moc.Alike k k') {Q : Prop} (hrow : k.InRow h Q) : k'.InRow h Q := by
  have ho : k'.order.isSome = k.order.isSome := by
    have := congrArg Option.isSome ha.order
    simpa using this
  unfold Moc.InRow Channel.inTable at hrow ⊢
  dsimp only at hrow ⊢
  rw [ho, ha.motion, ha.order, ha.slot, ha.wait, ha.rev, ha.stall, ha.fault]
  exact hrow

theorem Rows.updMoc_alike (hr : Rows e s) {g : Moc → Moc} (ha : Moc.Alike (s.ch c).moc (g (s.ch c).moc)) :
    Rows e (updMoc c g s) := by
  have m := (Moves.refl c s).updMoc g
  refine hr.moves m (fun _ _ he => he) (fun he => ha.inRow (hr.row c he)) hr.nodup (hr.queue_of_stay m rfl ha.order).2
    (hr.slots_of_moves m fun hs => ha.slot ▸ hs) ?_
  by_cases hready : s.ready = true
  · exact .inl hready
  · have hrest := hr.rest (by simpa using hready) c
    rw [ha.motion]
    exact .inr (by simpa [State.atRest] using hrest)

/-! ## An order handed over (R78, R120) -/

/-- R150: a new order on a channel that waits. -/
theorem Rows.installWaiting (hr : Rows none u) (hm : (u.ch c).moc.motion = .waiting) :
    Rows none (Machine.installWaiting c (Machine.installBasic c o u)) := by
  have m := moves_installBasic_waiting (o := o) hm
  obtain ⟨-, hq, hslot, -, -, hrev, hstall, hfault⟩ := (Moc.inRow_waiting hm).mp (hr.row c nofun)
  have hready : u.ready = true := hr.ready (c := c) (by rw [hm]; decide) (by rw [hm]; decide)
  generalize Machine.installBasic c o u = v at m ⊢
  have hb : Between c v := ⟨hr.off_row nofun m hq (fun hs => hs) hready,
    ⟨by rw [m.moc]; rfl, by rw [m.moc], m.hold, by rw [m.moc]; exact hrev, by rw [m.moc]; exact hfault,
      by rw [m.moc]; exact Moc.driven_of_none hstall, by rw [m.queue]; exact hq⟩, m.ready.trans hready⟩
  have hvm : (v.ch c).moc.motion ≠ .idle := by
    rw [m.moc]
    show (u.ch c).moc.motion ≠ .idle
    rw [hm]
    decide
  have hvo : (v.ch c).moc.order = some o := by rw [m.moc]
  have hvslot : (v.ch c).moc.slot = false := by rw [m.moc]; exact hslot
  have hvstall : (v.ch c).moc.stall = none := by rw [m.moc]; exact hstall
  unfold Machine.installWaiting
  rw [hvo]
  dsimp only
  split
  · next hd => exact hb.throughGate hvo hd hvm _ fun w hw hun => hw.joinStartQueue (by rw [hun.moc]; exact hvslot) (by rw [hun.moc]; exact hvstall)
  · split
    · exact hb.enterWaiting nofun
    · exact hb.joinStartQueue hvslot hvstall

/-- R78, R95: the installation of an order; no close meets a reversal (R119). -/
theorem Rows.install (hr : Rows none u) (hready : u.ready = true) (hrev : u.inReversal c = true → o.dir = .opening) :
    Rows none (install c o u) := by
  have hopen (hm : (u.ch c).moc.motion = .reversing) : o.dir = .opening := hrev (by simp [State.inReversal, hm])
  unfold Machine.install
  dsimp only
  split
  · next hm => exact hr.installWaiting hm
  · next hm =>
    have hrows := (hr.installBasic (o := u.normalized c o) nofun hready (by rw [hm]; decide) fun _ => hopen hm).whole
    have m : Moves c u (Machine.installBasic c (u.normalized c o) u)
        { (u.ch c).moc with motion := .opening, revTarget := none, order := some (u.normalized c o) } (u.ch c).hold u.startQueue := by
      rw [installBasic_of_reversing hm]
      exact ((Moves.refl c u).replaceReversal _ .opening).still ((Still.refl _).noteMoved c)
    generalize Machine.installBasic c (u.normalized c o) u = v at hrows m ⊢
    have hvm : (v.ch c).moc.motion = .opening := by rw [m.moc]
    exact (hrows.between (m.ready.trans hready) (.inr (.inr hvm))).throughGate (o := u.normalized c o) (by rw [m.moc]) (hopen hm) (by rw [hvm]; decide) _
      fun w hw hun => hw.rows.close (hun.row (hrows.row c nofun))
  · next hw hrv => exact (hr.installBasic (o := u.normalized c o) nofun hready hw fun hm => absurd hm hrv).whole

theorem Rows.handOver (hr : Rows none u) (hready : u.ready = true) (hrev : u.inReversal c = true → o.dir = .opening) :
    Rows none (handOver c o u) := by
  have hstill := (Still.refl u).clearOverride c
  unfold Machine.handOver
  split
  · next hd => exact (hr.still hstill).install hready fun _ => hd
  · exact hr.install hready hrev

/-! ## Pinches (R91), ends at a stall (R86 to R90, R162) -/

theorem Rows.pinch (hr : Rows none u) (c : Chan) (r : PinchReason) (load x : Int) : Rows none (pinch c r load x u) := by
  unfold Machine.pinch
  split
  · next o hm ho =>
    obtain ⟨-, hq, hslot, hwait, hhold, -, -, hfault, -⟩ := (Moc.inRow_closing hm).mp (hr.row c nofun)
    have hready : u.ready = true := hr.ready (c := c) (by rw [hm]; decide) (by rw [hm]; decide)
    have m := (Moves.refl c u).driveOff.updMoc fun k => { k with
      motion := .brakingPinch, order := none, latched := true
      revTarget := some (reversalTarget (u.ch c).cal (u.ch c).level x) }
    refine (Turned.leave hr m hq ((Moc.inRow_brakingPinch rfl).mpr ⟨rfl, id, ?_, ?_, hhold, rfl, braked_stall _ _ (hr.driven nofun), ?_⟩)
      (fun _ => hslot) (.inl hready)).whole.still
      ((((((Still.refl _).noteEnd ..).postAt ..).updAuth ..).reportGroup ..).reportLearning ..)
    · simpa using hslot
    · simpa using hwait
    · simpa using hfault
  · exact hr

/-- R100: the end of the order of a channel whose flags alone were touched before. -/
theorem Turned.endOrderWith (hr : Rows e s) (m : Moves c s u k h q) (hk : k.order.isSome = true) (hd : k.Driven) (hf : k.fault = none)
    (x : OrderEnd) {before after : State → State} (hb : ∀ v, Still v (before v)) (ha : ∀ v, Still v (after v)) :
    Turned e c s (Machine.endOrderWith c x .idle before after u) :=
  .stopped hr hd (.inl ⟨rfl, hf⟩) (m.endOrderWith hk x .idle hb ha)

theorem Rows.closedEndFound (hr : Rows none u) (ho : (u.ch c).moc.order.isSome = true) : Rows none (closedEndFound c o u) := by
  have m := ((Moves.refl c u).still (((Still.refl u).setPosition c 0 true).setLevel c
    (supportedLevel (u.ch c).cal) 0)).updMoc fun k => { k with latched := false }
  exact (Turned.endOrderWith hr m ho (hr.driven nofun) (hr.fault_of_order nofun ho) .closedEnd
    (before := postAt .endReached c 0 0) (after := closedEndAuth c o) (fun v => (Still.refl v).postAt ..)
    fun v => (Still.refl v).closedEndAuth c o).whole

theorem Rows.closedEnd (hr : Rows none u) (ho : (u.ch c).moc.order.isSome = true) : Rows none (closedEnd c o u) := by
  have m := ((Moves.refl c u).still ((Still.refl u).setPosition c 0 true)).updMoc fun k => { k with latched := false }
  unfold Machine.closedEnd
  refine Turned.whole (c := c) (Turned.endOrderWith hr m ho (hr.driven nofun) (hr.fault_of_order nofun ho) .closedEnd (fun v => ?_)
    fun v => ?_)
  · split
    · exact ((Still.refl v).postAt ..).postAt ..
    · exact (Still.refl v).postAt ..
  · exact (((Still.refl v).takeAdaptation c o _).takeCorrection c o _).closedEndAuth c o

theorem Rows.learnOpenEndStall (hr : Rows none u) (c : Chan) : Rows none (learnOpenEndStall c u) := by
  unfold Machine.learnOpenEndStall
  dsimp only
  split
  · exact (Rows.endOrderWith (hr.still ((Still.refl u).updCal c _)) nofun .openEnd (fun v => (Still.refl v).postAt ..)
      fun v => (Still.refl v).setLevel ..).whole
  · exact (Rows.endOrder (hr.still ((Still.refl u).updLearning c _)) nofun _).whole

theorem Rows.openingStall (hr : Rows none u) (c : Chan) : Rows none (openingStall c u) := by
  unfold Machine.openingStall
  split
  · exact (hr.endOrderWith nofun .openEnd (fun v => (Still.refl v).postAt ..) .refl).whole
  · exact (hr.endOrder nofun _).whole

theorem Rows.stallOutcome (hr : Rows none u) (c : Chan) : Rows none (stallOutcome c u) := by
  unfold Machine.stallOutcome
  split
  · next o _ ho =>
    have hsome : (u.ch c).moc.order.isSome = true := by rw [ho]; rfl
    split
    · exact hr.closedEndFound hsome
    · split
      · exact hr.closedEnd hsome
      · exact hr.pinch ..
  · split
    · exact hr.learnOpenEndStall c
    · exact hr.openingStall c
  · next hm => exact (hr.endReversal nofun (by simp [State.inReversal, hm]) _).whole
  · exact hr

theorem Rows.stallExpired (hr : Rows none u) (c : Chan) : Rows none (stallExpired c u) := by
  unfold Machine.stallExpired
  split
  · have hn : Rows none (updMoc c (fun k => { k with noStep := satSucc 255 (u.ch c).moc.noStep }) u) :=
      hr.updMoc_alike ⟨rfl, rfl, rfl, rfl, rfl, rfl, rfl⟩
    dsimp only
    split
    · exact (hn.enterFault nofun _).whole
    · exact hn.stallOutcome c
  · exact hr.stallOutcome c

/-! ## Brake expiries (R84, R93) and deadlines (R122, R153) -/

theorem Rows.reversalAtTarget (hr : Rows none u) (hrev : u.inReversal c = true) : Rows none (reversalAtTarget c u) :=
  (hr.endReversal nofun hrev .target).whole.still ((Still.refl _).updAuth ..)

theorem Rows.startReversal (hr : Rows none u) (hm : (u.ch c).moc.motion = .brakingPinch) : Rows none (startReversal c u) := by
  obtain ⟨ho, hq, hslot, hwait, hhold, hrev, -, hfault⟩ := (Moc.inRow_brakingPinch hm).mp (hr.row c nofun)
  have hready : u.ready = true := hr.ready (c := c) (by rw [hm]; decide) (by rw [hm]; decide)
  unfold Machine.startReversal
  split
  · split
    · exact hr.reversalAtTarget (by simp [State.inReversal, hm])
    · obtain ⟨w, m⟩ := (Moves.refl c u).driveOn .reversing .opening
      exact (Turned.leave hr m hq ((Moc.inRow_reversing rfl).mpr ⟨ho, id, hslot, hwait, hhold, hrev, rfl, hfault⟩) (fun _ => hslot)
        (.inl hready)).whole
  · exact hr

theorem Rows.brakeExpired (hr : Rows none u) (c : Chan) : Rows none (brakeExpired c u) := by
  have hb : Rows none (updMoc c (fun k => { k with brakeRunning := false }) u) := hr.updMoc_alike ⟨rfl, rfl, rfl, rfl, rfl, rfl, rfl⟩
  unfold Machine.brakeExpired
  dsimp only
  generalize updMoc c (fun k => { k with brakeRunning := false }) u = v at hb ⊢
  split
  · next hm =>
    obtain ⟨-, -, hslot, -⟩ := (Moc.inRow_brakingOrder hm).mp (hb.row c nofun)
    have hready : v.ready = true := hb.ready (c := c) (by rw [hm]; decide) (by rw [hm]; decide)
    exact (hb.between hready (.inl hm)).startDrive hslot (by rw [hm]; decide)
  · next hm => exact hb.startReversal hm
  · exact hb.still ((Still.refl v).push _)
  all_goals exact hb

theorem Rows.waitExpired (hr : Rows none u) (c : Chan) : Rows none (waitExpired c u) := by
  unfold Machine.waitExpired
  split
  · exact (hr.endOrder nofun _).whole
  · exact (hr.endOrder nofun _).whole
  · exact hr

theorem still_spacingRunsOut (u : State) : Still u (spacingRunsOut u) := by
  unfold spacingRunsOut
  split
  · exact (Still.refl u).of_chans rfl rfl rfl rfl
  · exact .refl u

/-! ## Hall steps (R5, R9, R85) -/

/-- R51: the stall timer restarts with the drive on. -/
theorem Rows.countStep (hr : Rows none u) (hs : (u.ch c).moc.stall.isSome = true) : Rows none (countStep c u) := by
  have h1 : Rows none (updMoc c (fun k => { k with noStep := 0, steps := k.steps + 1 }) u) :=
    hr.updMoc_alike ⟨rfl, rfl, rfl, rfl, rfl, rfl, rfl⟩
  have hs' : ((updMoc c (fun k => { k with noStep := 0, steps := k.steps + 1 }) u).ch c).moc.stall.isSome = true := by
    rw [ch_updMoc_self]
    exact hs
  unfold Machine.countStep
  dsimp only
  exact h1.updMoc_alike ⟨rfl, rfl, rfl, rfl, rfl, hs'.symm, rfl⟩

/-- R85, R163: the target of the order is reached by a step. -/
theorem Rows.targetByStep (hr : Rows none u) {d : Dir} (hm : (u.ch c).moc.motion = d.motion) (o : Order) :
    Rows none (targetByStep c o u) := by
  obtain ⟨ho, hq, hslot, hwait, hhold, hrev, -, hfault, -⟩ := (Moc.inRow_drive hm).mp (hr.row c nofun)
  have hready : u.ready = true := hr.ready (c := c) (by rw [hm]; cases d <;> decide) (by rw [hm]; cases d <;> decide)
  unfold Machine.targetByStep
  split
  · have m := ((Moves.refl c u).driveOff.updMoc fun k => { k with order := k.order.map fun o =>
      { o with dir := .closing, target := .toEnd, phase := .refClosing } }).updMoc fun k => { k with motion := .brakingOrder }
    refine (Turned.leave hr m hq ((Moc.inRow_brakingOrder rfl).mpr
      ⟨?_, id, ?_, ?_, hhold, ?_, braked_stall _ _ (hr.driven nofun), ?_⟩) (fun _ => hslot) (.inl hready)).whole
    · simpa using ho
    · simpa using hslot
    · simpa using hwait
    · simpa using hrev
    · simpa using hfault
  · exact (hr.endTarget nofun).whole

theorem Rows.stepOutcome (hr : Rows none u) (c : Chan) : Rows none (stepOutcome c u) := by
  unfold Machine.stepOutcome
  dsimp only
  split
  · next hm =>
    split
    · split
      · exact hr.reversalAtTarget (by simp [State.inReversal, hm])
      · exact hr
    · exact hr
  · next o hm ho =>
    split
    · exact hr.targetByStep (d := .opening) hm o
    · have hrow := hr.row c nofun
      obtain ⟨-, -, -, -, -, -, -, -, hdir⟩ := (Moc.inRow_opening hm).mp hrow
      rw [ho] at hdir
      have hready : u.ready = true := hr.ready (c := c) (by rw [hm]; decide) (by rw [hm]; decide)
      exact (hr.between hready (.inr (.inr hm))).throughGate ho (Option.some.inj hdir) (by rw [hm]; decide) _
        fun v hv hun => hv.rows.close (hun.row hrow)
  · next o hm ho =>
    split
    · exact hr.targetByStep (d := .closing) hm o
    · have hready : u.ready = true := hr.ready (c := c) (by rw [hm]; decide) (by rw [hm]; decide)
      split
      · exact (hr.between hready (.inr (.inl hm))).enterWaiting nofun
      · exact hr
  · exact hr

theorem Rows.driveStep (hr : Rows none u) (hs : (u.ch c).moc.stall.isSome = true) (d : Dir) : Rows none (driveStep c d u) := by
  unfold Machine.driveStep
  dsimp only
  refine ((hr.countStep hs).stepOutcome c).still ?_
  split
  · exact ((Still.refl _).noteMoved c).notifyFollower c
  · exact (Still.refl _).notifyFollower c

theorem still_driftStep (c : Chan) (u : State) : Still u (driftStep c u) := by
  unfold driftStep
  dsimp only
  split
  · exact ((Still.refl u).updHif ..).postAt ..
  · exact (Still.refl u).updHif ..

theorem Rows.contraryStep (hr : Rows none u) (c : Chan) (d : Dir) : Rows none (contraryStep c d u) := by
  unfold Machine.contraryStep
  dsimp only
  split
  · exact (Rows.enterFault (hr.still ((Still.refl u).updHif ..)) nofun _).whole
  · exact hr.still ((Still.refl u).updHif ..)

theorem Rows.classifyStep (hr : Rows none u) (c : Chan) (d : Dir) : Rows none (classifyStep c d u) := by
  unfold Machine.classifyStep
  split
  · next drive hd =>
    split
    · have hs := (hr.row c nofun).2.2.2.2.2.2.1.mpr (by revert hd; cases (u.ch c).moc.motion <;> simp [Motion.drive])
      exact Rows.driveStep (hr.still ((Still.refl u).updHif ..)) (by rw [ch_updHif_self]; exact hs) d
    · exact hr.contraryStep c d
  · split
    · exact hr
    · exact hr.still (still_driftStep c u)

theorem still_fresh (u : State) (n : Nat) : Still u { u with fresh := n } := (Still.refl u).of_chans rfl rfl rfl rfl

theorem Rows.rangeSaturation (hr : Rows none u) (c : Chan) : Rows none (rangeSaturation c u) := by
  have hinvalid : Rows none (updHif c (fun h => { h with posValid := false }) u) := hr.still ((Still.refl u).updHif ..)
  unfold Machine.rangeSaturation
  dsimp only
  generalize updHif c (fun h => { h with posValid := false }) u = v at hinvalid ⊢
  split
  · exact (hinvalid.enterFaultWith nofun _ fun w => (Still.refl w).setLevel ..).whole
  · have hdraw : Rows none (drawPostsFirst v).2 := hinvalid.still (still_fresh v _)
    split <;> rename_i w heq <;> rw [heq] at hdraw
    · exact (Rows.enterFault (hdraw.still ((Still.refl w).setLevel ..)) nofun _).whole
    · exact (hdraw.enterFaultWith nofun _ fun x => (Still.refl x).setLevel ..).whole

theorem Rows.hallStep (hr : Rows none u) (c : Chan) (d : Dir) : Rows none (hallStep c d u) := by
  unfold Machine.hallStep
  dsimp only
  split
  · exact hr.rangeSaturation c
  · exact (hr.still ((Still.refl u).updHif ..)).classifyStep c d

theorem Rows.quadratureError (hr : Rows none u) (c : Chan) : Rows none (quadratureError c u) := by
  have hcount : Rows none (updHif c (fun h => { h with quadErrors := satSucc 255 (u.ch c).hif.quadErrors }) u) :=
    hr.still ((Still.refl u).updHif ..)
  unfold Machine.quadratureError
  dsimp only
  generalize updHif c (fun h => { h with quadErrors := satSucc 255 (u.ch c).hif.quadErrors }) u = v at hcount ⊢
  split
  · have hdraw : Rows none (drawPostsFirst v).2 := hcount.still (still_fresh v _)
    split <;> rename_i w heq <;> rw [heq] at hdraw
    · exact (Rows.enterFault (hdraw.still ((Still.refl w).postAt ..)) nofun _).whole
    · exact (hdraw.enterFault nofun _).whole.still ((Still.refl _).postAt ..)
  · exact hcount.still ((Still.refl v).postAt ..)

theorem Rows.accept (hr : Rows none u) (c : Chan) (pair : Pair) : Rows none (accept c pair u) := by
  have hfilter : Rows none (updHif c (fun h => { h with phase := some pair, candidate := none, count := 0 }) u) :=
    hr.still ((Still.refl u).updHif ..)
  unfold Machine.accept
  dsimp only
  split
  · exact hfilter
  · split
    · exact hfilter
    · split
      · exact hfilter.hallStep c _
      · exact hfilter.quadratureError c

/-! ## LDE (R30, R31, R47) and the supply (R25) -/

theorem still_takeNext (u : State) : Still u (takeNext u) := by
  unfold takeNext
  split
  · next c _ _ =>
    split
    · next rest _ =>
      exact Still.of_chans (u := updHif c (fun h => { h with fifo := rest, gap := false }) u) ((Still.refl u).updHif ..) rfl rfl rfl rfl
    · exact .refl u
  · exact .refl u

theorem still_markSupply (c : Chan) (u : State) : Still u (markSupply c u) := by
  unfold markSupply
  split
  · split
    · exact (Still.refl u).updLearning ..
    · exact .refl u
  · exact .refl u

theorem Rows.completeTake (hr : Rows none u) (k : Take) : Rows none (completeTake k u) := by
  have hfree : Rows none { u with lde := { u.lde with busy := none } } := hr.still ((Still.refl u).of_chans rfl rfl rfl rfl)
  unfold Machine.completeTake
  dsimp only
  generalize ({ u with lde := { u.lde with busy := none } } : State) = v at hfree ⊢
  split
  · exact hfree
  · have hctx : Rows none (updCtx k.chan (fun _ => (treatRecord k (v.ch k.chan).ctx).1) v) := hfree.still ((Still.refl v).updCtx ..)
    generalize updCtx k.chan (fun _ => (treatRecord k (v.ch k.chan).ctx).1) v = w at hctx ⊢
    have hmark : Rows none (if (isComputed k (v.ch k.chan).ctx && k.learnClose && decide (k.supply ≠ .normal)) = true then
        markSupply k.chan w else w) := by
      split
      · exact hctx.still (still_markSupply k.chan w)
      · exact hctx
    split
    · exact hmark.pinch ..
    · exact hmark

theorem Rows.crankChannel (hr : Rows none u) (c : Chan) : Rows none (crankChannel u c) := by
  unfold Machine.crankChannel
  split
  · next hm => exact (hr.endReversal nofun (by simp [State.inReversal, hm]) _).whole
  · next hm => exact (hr.endReversal nofun (by simp [State.inReversal, hm]) _).whole
  · exact (hr.endOrder nofun _).whole
  · exact (hr.endOrder nofun _).whole
  · exact (hr.endOrder nofun _).whole
  · exact (hr.endOrder nofun _).whole
  · exact (hr.endOrder nofun _).whole
  · exact hr
  · exact hr

theorem Rows.evaluateSupply (hr : Rows none u) : Rows none (evaluateSupply u) := by
  unfold Machine.evaluateSupply
  dsimp only
  split
  · have hposted : Rows none (post .supplyState none 0 (supplyDetail u.sup.next u.sup.reading)
        { u with sup := { u.sup with state := u.sup.next, exitRun := 0 } }) :=
      hr.still (Still.post (u := { u with sup := { u.sup with state := u.sup.next, exitRun := 0 } })
        ((Still.refl u).of_chans rfl rfl rfl rfl) ..)
    split
    · exact Rows.foldl (fun c hv => hv.crankChannel c) _ hposted
    · exact hposted
  · exact hr

end

end Sys2Proof.Machine
end

section
/-! The table of section 5.1, part 6: the requests of chapters 7 to 10. -/

namespace Sys2Proof.Machine

section
variable {e : Option Chan} {c d : Chan} {s t u v : State} {k : Moc} {h : Hold} {q : List Chan} {o : Order} {x : Client}

/-! ## CLI's own requests (R177, R178, R182) -/

theorem Still.updLink (hs : Still s u) (x : Client) (g : Link → Link) : Still s (updLink x g u) := hs.of_chans rfl rfl rfl rfl

theorem still_readPanel (p m : BitVec 4) (a : Word) (s : State) : Still s (readPanel p m a s).state := by
  unfold readPanel
  split; · exact .refl s
  split; · exact .refl s
  split <;> exact .refl s

theorem still_readEvent (x : Client) (m : BitVec 4) (a : Word) (s : State) : Still s (readEvent x m a s).state := by
  unfold readEvent
  split; · exact .refl s
  split; · exact .of_chans (.refl s) rfl rfl rfl rfl
  split <;> exact .refl s

theorem still_popEvent (x : Client) (m : BitVec 4) (a : Word) (s : State) : Still s (popEvent x m a s).state := by
  unfold popEvent
  split; · exact .refl s
  split
  · exact .of_chans (.refl s) rfl rfl rfl rfl
  · exact .refl s

theorem still_setEventMask (x : Client) (m : BitVec 4) (a : Word) (s : State) : Still s (setEventMask x m a s).state := by
  unfold setEventMask
  split
  · exact .refl s
  · exact .of_chans (.refl s) rfl rfl rfl rfl

/-! ## MOVE (R117, R120, R121) -/

/-- R119: what check 9 lets pass meets a reversal with an open alone. -/
theorem opening_of_not_busy {dir : Dir} (h : s.busyFor x c dir = false) (hrev : s.inReversal c = true) : dir = .opening := by
  unfold State.busyFor at h
  rw [if_pos hrev] at h
  cases dir with
  | opening => rfl
  | closing => cases h

theorem Rows.refreshOrder (hr : Rows e s) (c : Chan) : Rows e (refreshOrder c s) :=
  hr.updMoc_alike ⟨rfl, by cases (s.ch c).moc.order <;> rfl, rfl, rfl, rfl, rfl, rfl⟩

theorem Rows.judgeMove (hr : Rows none s) (hready : s.ready = true) (x : Client) (c : Chan) (dir : Dir) (m : Mode) (org : Origin)
    (tgt : Target) : Rows none (judgeMove x c dir m org tgt s).state := by
  unfold Machine.judgeMove
  split; · exact hr
  split; · exact hr
  split; · exact hr.refreshOrder c
  split; · exact hr
  next hbusy =>
  have hstill := (Still.refl s).noteOverride c (s.moveOrder x c dir m org tgt).k
  refine Rows.handOver (hr.still hstill) (hstill.ready.trans hready) fun hrev => ?_
  have hsame : (noteOverride c (s.moveOrder x c dir m org tgt).k s).inReversal c = s.inReversal c := by
    unfold State.inReversal
    rw [hstill.moc]
  have hfree : s.busyFor x c dir = false := by simpa using hbusy
  exact opening_of_not_busy hfree (hsame ▸ hrev)

theorem Rows.moveRequest (hr : Rows none s) (hready : s.ready = true) (x : Client) (p m : BitVec 4) (a : Word) :
    Rows none (moveRequest x p m a s).state := by
  unfold Machine.moveRequest
  split
  · split
    · exact hr.judgeMove hready ..
    · exact hr
  · exact hr

/-! ## HALT, claims, lockouts, marks (R123 to R133) -/

theorem Rows.haltChannel (hr : Rows none s) (c : Chan) : Rows none (haltChannel s c) := (hr.endOrder nofun _).whole

theorem Rows.haltRequest (hr : Rows none s) (x : Client) (p m : BitVec 4) (a : Word) : Rows none (haltRequest x p m a s).state := by
  unfold Machine.haltRequest
  split; · exact hr
  split
  · split
    · exact Rows.foldl (fun c hv => hv.haltChannel c) _ hr
    · exact hr
  · split; · exact hr
    split
    · exact hr
    · exact hr.haltChannel _

theorem Rows.claimChannel (hr : Rows none s) (x : Client) (c : Chan) : Rows none (claimChannel x s c) := by
  unfold Machine.claimChannel stopForClaim
  refine Rows.still ?_ ((Still.refl _).updAuth ..)
  split
  · next hrev => exact (hr.endReversal nofun hrev _).whole
  · exact (hr.endOrder nofun _).whole

theorem Rows.stopClaimRequest (hr : Rows none s) (x : Client) (p m : BitVec 4) (a : Word) :
    Rows none (stopClaimRequest x p m a s).state := by
  unfold Machine.stopClaimRequest
  split; · exact hr
  split
  · split
    · exact Rows.foldl (fun c hv => hv.claimChannel x c) _ hr
    · exact hr
  · split; · exact hr
    split
    · exact hr
    · exact hr.claimChannel x _

theorem Still.foldl {α : Type} {g : State → α → State} (hg : ∀ v a, Still v (g v a)) (l : List α) (s : State) :
    Still s (l.foldl g s) := by
  induction l generalizing s with
  | nil => exact .refl s
  | cons a l ih => exact (hg s a).trans (ih _)

theorem still_stopReleaseRequest (x : Client) (p m : BitVec 4) (a : Word) (s : State) :
    Still s (stopReleaseRequest x p m a s).state := by
  unfold stopReleaseRequest
  split; · exact .refl s
  split
  · exact Still.foldl (fun v c => (Still.refl v).updAuth ..) _ s
  · split; · exact .refl s
    split
    · exact .refl s
    · dsimp only [releaseClaim]
      exact (Still.refl s).updAuth ..

theorem Rows.lockChannel (hr : Rows none s) (x : Client) (c : Chan) : Rows none (lockChannel x s c) := by
  have hmark : Rows none (updAuth c (fun k => { k with lockouts := addClient k.lockouts x }) s) := hr.still ((Still.refl s).updAuth ..)
  unfold Machine.lockChannel
  dsimp only
  split
  · split
    · exact hmark
    · exact (hmark.endOrder nofun _).whole
  · exact hmark

theorem Rows.lockoutSetRequest (hr : Rows none s) (x : Client) (p m : BitVec 4) (a : Word) :
    Rows none (lockoutSetRequest x p m a s).state := by
  unfold Machine.lockoutSetRequest
  split; · exact hr
  dsimp only
  split
  · exact hr
  · exact Rows.foldl (fun c hv => hv.lockChannel x c) _ hr

theorem still_lockoutClearRequest (x : Client) (p m : BitVec 4) (a : Word) (s : State) :
    Still s (lockoutClearRequest x p m a s).state := by
  unfold lockoutClearRequest
  split; · exact .refl s
  split
  · exact .refl s
  · exact Still.foldl (fun v c => (Still.refl v).updAuth ..) _ s

theorem Rows.ackChannel (hr : Rows e s) (c : Chan) : Rows e (ackChannel s c) := hr.updMoc_alike ⟨rfl, rfl, rfl, rfl, rfl, rfl, rfl⟩

theorem Rows.ackReversalRequest (hr : Rows none s) (x : Client) (p m : BitVec 4) (a : Word) :
    Rows none (ackReversalRequest x p m a s).state := by
  unfold Machine.ackReversalRequest
  split; · exact hr
  split
  · exact Rows.foldl (fun c hv => hv.ackChannel c) _ hr
  · split; · exact hr
    split
    · exact hr
    · exact hr.ackChannel _

/-! ## PANEL RESTART (R99) -/

/-- R99: the flags and the fault reason that a restart clears. -/
def Moc.cleared (k : Moc) : Moc := { k with latched := false, noStep := 0, fault := none }

theorem Moves.clearForRestart (m : Moves c s u k h q) : Moves c s (clearForRestart c u) k.cleared h q :=
  (m.still (((((Still.refl u).setPosition c 0 false).updHif c Hif.restart).updCtx c (fun _ => resetContext)).dropTake c
    |>.clearOverride c)).updMoc _

/-- What the other blocks do at a restart: MOC's flags are cleared, and no other motion is touched. -/
def Restarts (c : Chan) (after : State → State) : Prop :=
  ∀ {s u : State} {k : Moc} {h : Hold} {q : List Chan}, Moves c s u k h q → Moves c s (after u) k.cleared h q

/-- R100: the end of the order that a restart makes. -/
theorem Moves.endOrderWith_restart (m : Moves c s u k h q) (hk : k.order.isSome = true) (x : OrderEnd) {after : State → State}
    (ha : Restarts c after) : Moves c s (Machine.endOrderWith c x .idle id after u)
      (Moves.stopped (Moves.braked u.clock.now (u.ch c).cal.brake k) .idle).cleared .none (q.filter (· ≠ c)) := by
  unfold Machine.endOrderWith
  split
  · next hn =>
    rw [m.moc] at hn
    rw [hn] at hk
    cases hk
  · exact (ha ((m.stopChannel .idle).still ((((Still.refl _).noteEnd ..).postAt ..).reportGroup ..))).still
      ((Still.refl _).reportLearning ..)

theorem inRow_restarted (hd : k.Driven) (now b : Nat) :
    (Moves.stopped (Moves.braked now b k) .idle).cleared.InRow .none False :=
  (Moc.inRow_idle rfl).mpr ⟨rfl, id, rfl, rfl, rfl, rfl, braked_stall now b hd, rfl⟩

theorem Rows.restartMotion (hr : Rows none s) {after : State → State} (ha : Restarts c after) :
    Rows none (restartMotion c after s) := by
  have hdriven := hr.driven (c := c) nofun
  unfold Machine.restartMotion
  split
  · exact (Turned.leave hr (ha ((Moves.refl c s).endReversalTo .restart .idle)) (by simp) (inRow_restarted hdriven _ _) nofun
      (.inr (.inl rfl))).whole
  · next hnr =>
    split
    · next ho =>
      exact (Turned.leave hr ((Moves.refl c s).endOrderWith_restart ho .restart ha) (by simp) (inRow_restarted hdriven _ _) nofun
        (.inr (.inl rfl))).whole
    · next hno =>
      have hrow := hr.row c nofun
      have hrest : (s.ch c).moc.motion = .idle ∨ (s.ch c).moc.motion = .fault := by
        have h1 : ¬ ((s.ch c).moc.motion = .brakingPinch ∨ (s.ch c).moc.motion = .reversing) := by
          simpa [State.inReversal] using hnr
        have h2 := mt hrow.order.mpr (by simpa [State.hasOrder] using hno)
        revert h1 h2
        cases (s.ch c).moc.motion <;> simp
      have m := ha ((Moves.refl c s).updMoc fun k => { k with motion := .idle })
      rcases hrest with hm | hm
      · obtain ⟨h1, h2, h3, h4, h5, h6, h7, -⟩ := (Moc.inRow_idle hm).mp hrow
        exact (Turned.leave hr m h2 ((Moc.inRow_idle rfl).mpr ⟨h1, id, h3, h4, h5, h6, h7, rfl⟩) (fun hs => hs) (.inr (.inl rfl))).whole
      · obtain ⟨h1, h2, h3, h4, h5, h6, h7, -⟩ := (Moc.inRow_fault hm).mp hrow
        exact (Turned.leave hr m h2 ((Moc.inRow_idle rfl).mpr ⟨h1, id, h3, h4, h5, h6, h7, rfl⟩) (fun hs => hs) (.inr (.inl rfl))).whole

theorem Rows.restartChannel (hr : Rows none s) (c : Chan) : Rows none (restartChannel s c) := by
  have hlowers : Restarts c fun s => setLevel c .noneKnown 0 (clearForRestart c s) := fun m =>
    m.clearForRestart.still ((Still.refl _).setLevel ..)
  unfold Machine.restartChannel
  dsimp only
  split
  · exact hr.restartMotion hlowers
  · have hdraw : Rows none (drawPostsFirst s).2 := hr.still (still_fresh s _)
    split <;> rename_i w heq <;> rw [heq] at hdraw
    · exact Rows.restartMotion (hdraw.still ((Still.refl w).setLevel ..)) fun m => m.clearForRestart
    · exact hdraw.restartMotion hlowers

theorem Rows.panelRestartRequest (hr : Rows none s) (x : Client) (p m : BitVec 4) (a : Word) :
    Rows none (panelRestartRequest x p m a s).state := by
  unfold Machine.panelRestartRequest
  split; · exact hr
  split
  · dsimp only
    split; · exact hr
    split
    · exact hr
    · exact Rows.foldl (fun c hv => hv.restartChannel c) _ hr
  · split; · exact hr
    split
    · exact hr
    · exact hr.restartChannel _

/-! ## Groups (R138 to R143) -/

/-- R139: a member judged and, if admitted, installed. -/
theorem Rows.admitMember {m : Admission} (hr : Rows none m.state) (hready : m.state.ready = true) (g : Fin 4) (x : Client) (dir : Dir)
    (org : Origin) (c : Chan) : Rows none (Machine.admitMember g x dir org m c).state := by
  unfold Machine.admitMember
  split
  · exact hr.still ((Still.refl _).skipMember ..)
  · next hpass =>
    refine (hr.handOver hready fun hrev => ?_).settle
    unfold State.memberRefusal at hpass
    split at hpass
    · cases hpass
    · exact opening_of_not_busy (not_busyFor_of_admitted hpass) hrev

theorem Rows.admitMembers_fold {m : Admission} (hr : Rows none m.state) (hready : m.state.ready = true) (g : Fin 4) (x : Client)
    (dir : Dir) (org : Origin) (cs : List Chan) : Rows none (cs.foldl (Machine.admitMember g x dir org) m).state := by
  induction cs generalizing m with
  | nil => exact hr
  | cons c cs ih =>
    exact ih (hr.admitMember hready g x dir org c) ((Acts.admitMember g x dir org (.refl m.state) c).ready.trans hready)

theorem Rows.admitMembers (hr : Rows none s) (hready : s.ready = true) (g : Fin 4) (x : Client) (dir : Dir) (org : Origin)
    (cs : List Chan) : Rows none (admitMembers g x dir org cs s).state := by
  have hstill : Still s (takeEntry g x dir org cs s) := (Still.refl s).of_chans rfl rfl rfl rfl
  have hfold := Rows.admitMembers_fold (m := ⟨takeEntry g x dir org cs s, none, false⟩) (hr.still hstill)
    (hstill.ready.trans hready) g x dir org cs
  unfold Machine.admitMembers
  dsimp only
  split
  · exact hfold.still ((Still.refl _).finishGroup g)
  · exact hr

theorem Rows.groupMoveRequest (hr : Rows none s) (hready : s.ready = true) (x : Client) (p m : BitVec 4) (a : Word) :
    Rows none (groupMoveRequest x p m a s).state := by
  unfold Machine.groupMoveRequest
  split
  · dsimp only
    split; · exact hr
    split; · exact hr
    exact hr.admitMembers hready ..
  · exact hr

theorem Rows.cancelMember (hr : Rows none s) (g : Fin 4) (c : Chan) : Rows none (cancelMember g s c) := by
  unfold Machine.cancelMember
  split
  · exact (hr.endOrder nofun _).whole
  · exact hr

theorem Rows.cancelMembers (hr : Rows none s) (g : Fin 4) : Rows none (allChans.foldl (Machine.cancelMember g) s) :=
  Rows.foldl (fun c hv => hv.cancelMember g c) _ hr

theorem Rows.groupCancelRequest (hr : Rows none s) (x : Client) (p m : BitVec 4) (a : Word) :
    Rows none (groupCancelRequest x p m a s).state := by
  unfold Machine.groupCancelRequest
  generalize (a.extractLsb' 0 8).toNat = serial
  generalize (a.extractLsb' 8 8).toNat = index
  dsimp only
  split; · exact hr
  next g _ =>
  generalize allChans.filter (s.holdsGroupOrder g) = members
  have hfold := hr.cancelMembers g
  generalize allChans.foldl (Machine.cancelMember g) s = t at hfold ⊢
  split; · exact hr
  split; · exact hr
  split; · exact hr
  split
  · exact hr
  · exact hfold

theorem still_readGroupRequest (p m : BitVec 4) (a : Word) (s : State) : Still s (readGroupRequest p m a s).state := by
  unfold readGroupRequest
  split; · exact .refl s
  split; · exact .refl s
  split
  · unfold State.groupField
    split
    · exact .refl s
    · exact .refl s
    · exact .refl s
    · exact .refl s
    · dsimp only
      split <;> exact .refl s
  · exact .refl s

/-! ## Learning (R159 to R161) -/

theorem Rows.startLearning (hr : Rows none s) (hready : s.ready = true) (x : Client) (c : Chan) (kind : RunKind) (ph : Phase) :
    Rows none (startLearning x c kind ph s).state := by
  have hstill := (Still.refl s).updLearning c fun _ => ⟨some kind, some x, none⟩
  exact Rows.handOver (hr.still hstill) (o := learnOrder x ph s.clock.ms) (hstill.ready.trans hready) fun _ => rfl

theorem Rows.learnRequest (hr : Rows none s) (hready : s.ready = true) (x : Client) (p : BitVec 4) (a : Word) (kind : RunKind)
    (ph : Phase) (need : Level) : Rows none (learnRequest x p a kind ph need s).state := by
  unfold Machine.learnRequest
  split; · exact hr
  split; · exact hr
  split
  · exact hr
  · exact hr.startLearning hready ..

theorem still_forgetRequest (x : Client) (p : BitVec 4) (a : Word) (s : State) : Still s (forgetRequest x p a s).state := by
  unfold forgetRequest
  split; · exact .refl s
  split
  · exact .refl s
  · dsimp only
    unfold forgetChannel
    split
    · dsimp only
      split
      · exact ((Still.refl s).updCal ..).setLevel ..
      · exact (Still.refl s).updCal ..
    · exact .refl s

end

end Sys2Proof.Machine
end

section
/-! The table of section 5.1, part 7: calibration and the image (chapters 4 and 11), which change a motion only at rest. -/

namespace Sys2Proof.Machine

section
variable {e : Option Chan} {c d : Chan} {s t u v : State} {k : Moc} {h : Hold} {q : List Chan} {x : Client}

/-! ## Channels at rest -/

/-- Every channel is IDLE or FAULT (R63, R76, R191). -/
def AllRest (s : State) : Prop := ∀ c, s.atRest c = true

theorem atRest_iff : s.atRest c = true ↔ (s.ch c).moc.motion = .idle ∨ (s.ch c).moc.motion = .fault := by
  simp [State.atRest]

theorem atRest_congr (hm : (t.ch c).moc.motion = (s.ch c).moc.motion) : t.atRest c = s.atRest c := by
  simp only [State.atRest, hm]

theorem Still.atRest (hs : Still s t) (c : Chan) : t.atRest c = s.atRest c := atRest_congr (by rw [hs.moc])

theorem allRest_of_any (ha : (allChans.any fun c => !s.atRest c) = false) : AllRest s := by
  simpa [AllRest, mem_allChans] using ha

/-- A channel at rest holds no slot. -/
theorem Rows.slot_of_rest (hr : Rows none s) (hrest : s.atRest c = true) : (s.ch c).moc.slot = false := by
  have hrow := hr.row c nofun
  rcases atRest_iff.mp hrest with hm | hm
  · obtain ⟨-, -, hslot, -⟩ := (Moc.inRow_idle hm).mp hrow
    exact hslot
  · obtain ⟨-, -, hslot, -⟩ := (Moc.inRow_fault hm).mp hrow
    exact hslot

/-- With every channel at rest the table asks nothing of Ns or READY. -/
theorem Rows.of_rest (hr : Rows none s) (hrest : AllRest s) (hc : t.chans = s.chans) (hq : t.startQueue = s.startQueue) :
    Rows none t where
  row d hd := by rw [ch_congr hc, hq]; exact hr.row d hd
  nodup := hq ▸ hr.nodup
  first := by
    have ho : t.opens = s.opens := funext fun d => Rows.opens_congr (by rw [ch_congr hc])
    unfold OpeningFirst
    rw [hq, ho]
    exact hr.first
  slots := by
    have hnone : allChans.filter t.holdsSlot = [] := List.filter_eq_nil_iff.mpr fun d _ => by
      rw [State.holdsSlot, ch_congr hc, hr.slot_of_rest (hrest d)]
      exact Bool.false_ne_true
    rw [State.slotCount, hnone]
    exact Nat.zero_le _
  rest _ d := by
    exact (atRest_congr (s := s) (by rw [ch_congr hc])).trans (hrest d)

/-! ## The populated flag (R62) -/

theorem Moves.applyPopulated (m : Moves c s u k h q) :
    Moves c s (applyPopulated c u) { k with motion := .idle, fault := none } h q :=
  (m.still ((((Still.refl u).setPosition c 0 false).updHif c Hif.restart).updChan c rfl rfl)).updMoc _

/-- A channel at rest may become IDLE, its fault reason cleared. -/
theorem Rows.idled (hr : Rows none s) (hrest : s.atRest c = true)
    (m : Moves c s t { (s.ch c).moc with motion := .idle, fault := none } (s.ch c).hold s.startQueue) : Rows none t := by
  have hrow := hr.row c nofun
  rcases atRest_iff.mp hrest with hm | hm
  · obtain ⟨h1, h2, h3, h4, h5, h6, h7, -⟩ := (Moc.inRow_idle hm).mp hrow
    exact (Turned.leave hr m h2 ((Moc.inRow_idle rfl).mpr ⟨h1, id, h3, h4, h5, h6, h7, rfl⟩) (fun hs => hs) (.inr (.inl rfl))).whole
  · obtain ⟨h1, h2, h3, h4, h5, h6, h7, -⟩ := (Moc.inRow_fault hm).mp hrow
    exact (Turned.leave hr m h2 ((Moc.inRow_idle rfl).mpr ⟨h1, id, h3, h4, h5, h6, h7, rfl⟩) (fun hs => hs) (.inr (.inl rfl))).whole

theorem Rows.applyPopulated (hr : Rows none s) (hrest : s.atRest c = true) : Rows none (applyPopulated c s) :=
  hr.idled hrest (Moves.refl c s).applyPopulated

/-- What makes a channel IDLE leaves every channel at rest that was so. -/
theorem atRest_applyPopulated (hrest : s.atRest d = true) : (applyPopulated c s).atRest d = true := by
  have m := (Moves.refl c s).applyPopulated
  by_cases hd : d = c
  · subst hd
    exact atRest_iff.mpr (.inl (by rw [m.moc]))
  · exact (atRest_congr (s := s) (by rw [(m.other d hd).1])).trans hrest

theorem Rows.setPopulated (hr : Rows none s) {b : Bool} (hrest : s.populated c ≠ b → s.atRest c = true) :
    Rows none (setPopulated c b s) := by
  have hstill := (Still.refl s).updCal c fun r => ({ r with populated := b }).markChanged
  unfold Machine.setPopulated
  split
  · exact hr
  · next hb => exact (hr.still hstill).applyPopulated ((hstill.atRest c).trans (hrest hb))

/-- R63: the mask of populated channels, the channels whose flag it changes being at rest. -/
theorem Rows.setMask (hr : Rows none s) (mask : BitVec 8) (l : List Chan)
    (hrest : ∀ c, s.populated c ≠ inMask mask c → s.atRest c = true) :
    Rows none (l.foldl (fun s c => Machine.setPopulated c (inMask mask c) s) s) := by
  induction l generalizing s with
  | nil => exact hr
  | cons c l ih =>
    refine ih (hr.setPopulated (hrest c)) fun d hd => ?_
    dsimp only at hd ⊢
    by_cases hb : s.populated c = inMask mask c
    · rw [setPopulated_of_same hb] at hd ⊢
      exact hrest d hd
    · obtain ⟨honly, hself, -⟩ := setPopulated_of_change hb
      by_cases hdc : d = c
      · subst hdc
        exact atRest_iff.mpr (.inl (by rw [hself]; rfl))
      · rw [State.populated, honly d hdc] at hd
        exact (atRest_congr (s := s) (by rw [honly d hdc])).trans (hrest d hd)

/-! ## SET PARAMETER and the readings (R59, R60, R63, R71) -/

theorem Rows.setChannelParam (hr : Rows none s) (x : Client) (c : Chan) (n v : Nat) : Rows none (setChannelParam x c n v s).state := by
  unfold Machine.setChannelParam
  split
  · exact hr
  · next hpass =>
    have hrest : s.atRest c = true := by
      simpa [failsIf_eq_none] using firstFailing_none hpass (failsIf (!s.atRest c) .busy) (by simp)
    have hcal := (Still.refl s).updCal c (CalRecord.setParam n v)
    dsimp only
    unfold writeChannelParam
    split
    · exact hr.setPopulated fun _ => hrest
    · dsimp only
      split
      · exact hr.still hcal.testFollowers
      · exact hr.still hcal

theorem Still.setGlobal (hs : Still s u) {f : GlobalRecord → GlobalRecord} (hf : (f u.glob).ns = u.glob.ns) :
    Still s (setGlobal f u) := by
  refine hs.of_chans rfl rfl ?_ rfl
  change (if f u.glob = u.glob then u.glob else (f u.glob).markChanged).ns = _
  split
  · rfl
  · exact hf

theorem Rows.writeGlobalParam (hr : Rows none s) {n : Nat} {a : Word} (hbusy : s.globalBusy n a = false) :
    Rows none (writeGlobalParam n a s) := by
  unfold Machine.writeGlobalParam
  split
  · exact hr.of_rest (allRest_of_any hbusy) rfl rfl
  · exact hr.still (((Still.refl s).setGlobal (f := fun g => { g with ts := a.toNat }) rfl).of_chans rfl rfl rfl rfl)
  · refine hr.setMask _ allChans fun c hc => ?_
    by_contra hrest
    have hmem : ((s.changedBy (a.extractLsb' 0 8)).any fun c => !s.atRest c) = true :=
      changedBy_any.mpr ⟨c, hc, by simpa using hrest⟩
    exact Bool.false_ne_true (hbusy.symm.trans hmem)
  · split
    · exact hr.still ((Still.refl s).setGlobal rfl)
    · exact hr

theorem Rows.setGlobalParam (hr : Rows none s) (x : Client) (n : Nat) (a : Word) : Rows none (setGlobalParam x n a s).state := by
  unfold Machine.setGlobalParam
  split
  · exact hr
  · next hpass =>
    refine hr.writeGlobalParam ?_
    simpa [failsIf_eq_none] using firstFailing_none hpass (failsIf (s.globalBusy n a) .busy) (by simp)

theorem Rows.setParameterRequest (hr : Rows none s) (x : Client) (p m : BitVec 4) (a : Word) :
    Rows none (setParameterRequest x p m a s).state := by
  unfold Machine.setParameterRequest
  split; · exact hr.setGlobalParam ..
  split
  · exact hr.setChannelParam ..
  · exact hr

theorem state_readParameterRequest (p m : BitVec 4) (a : Word) (s : State) : (readParameterRequest p m a s).state = s := by
  unfold readParameterRequest
  split; · rfl
  split
  · split <;> rfl
  · split <;> rfl

theorem state_readProfileRequest (p m : BitVec 4) (a : Word) (s : State) : (readProfileRequest p m a s).state = s := by
  unfold readProfileRequest
  split
  · split
    · unfold readProfile
      split
      · split
        · rfl
        · split <;> rfl
      · rfl
      · split; · rfl
        split <;> rfl
    · rfl
  · rfl

/-! ## The ZONE requests (R64 to R70) -/

theorem still_zoneRequest (x : Client) (p : BitVec 4) (malformed : Bool) {body : Chan → State → Answer}
    (hb : ∀ c, Still s (body c s).state) : Still s (zoneRequest x p malformed body s).state := by
  unfold zoneRequest
  split; · exact .refl s
  split
  · exact .refl s
  · exact hb _

theorem still_zoneBegin (x : Client) (c : Chan) (s : State) : Still s (zoneBegin x c s).state :=
  (Still.refl s).of_chans rfl rfl rfl rfl

theorem still_zonePutStart (x : Client) (n : Nat) (c : Chan) (s : State) : Still s (zonePutStart x n c s).state := by
  unfold zonePutStart
  dsimp only
  split
  · exact .refl s
  · exact (Still.refl s).of_chans rfl rfl rfl rfl

theorem still_zonePutField (x : Client) (n : Nat) (a : Word) (c : Chan) (s : State) : Still s (zonePutField x n a c s).state := by
  unfold zonePutField
  split
  · split
    · exact (Still.refl s).of_chans rfl rfl rfl rfl
    · exact .refl s
  · exact .refl s

theorem still_zoneCommit (x : Client) (c : Chan) (s : State) : Still s (zoneCommit x c s).state := by
  unfold zoneCommit
  dsimp only
  split
  · exact ((Still.refl s).updCal c fun k => ({ k with zones := s.staging.records }).markChanged).of_chans rfl rfl rfl rfl
  · exact .refl s

theorem still_zoneAbandon (x : Client) (c : Chan) (s : State) : Still s (zoneAbandon x c s).state := by
  unfold zoneAbandon
  split; · exact .refl s
  split
  · exact (Still.refl s).of_chans rfl rfl rfl rfl
  · exact .refl s

/-! ## STORE, CAL LOCK, CAL ERASE (R188, R190, R191) -/

theorem still_storeRequest (x : Client) (p m : BitVec 4) (a : Word) (s : State) : Still s (storeRequest x p m a s).state := by
  unfold storeRequest
  dsimp only
  split; · exact .refl s
  split
  · next c _ =>
    have hbegun : Still s (beginJob (.storeChannel c (s.ch c).cal.clean) 35000 s) := (Still.refl s).of_chans rfl rfl rfl rfl
    exact hbegun.updCal c fun r => { r with changed := false }
  · exact (Still.refl s).of_chans rfl rfl rfl rfl

theorem still_calLockRequest (x : Client) (p m : BitVec 4) (a : Word) (s : State) : Still s (calLockRequest x p m a s).state := by
  unfold calLockRequest
  split; · exact .refl s
  split
  · exact .refl s
  · exact (Still.refl s).of_chans rfl rfl rfl rfl

/-- R191 for a channel at rest, which stays so. -/
theorem Rows.eraseChannel (hr : Rows none s) (hrest : AllRest s) (c : Chan) :
    Rows none (eraseChannel s c) ∧ AllRest (eraseChannel s c) := by
  have hcal := (Still.refl s).updCal c fun _ => defaultCal
  have lowered {w : State} (hw : Rows none w ∧ AllRest w) :
      Rows none (if levelCode .closedKnown < levelCode (w.ch c).level then setLevel c .closedKnown (w.ch c).hif.pos w else w) ∧
        AllRest (if levelCode .closedKnown < levelCode (w.ch c).level then setLevel c .closedKnown (w.ch c).hif.pos w else w) := by
    split
    · have hlower := (Still.refl w).setLevel c .closedKnown (w.ch c).hif.pos
      exact ⟨hw.1.still hlower, fun d => (hlower.atRest d).trans (hw.2 d)⟩
    · exact hw
  have hafter : Rows none (updCal c (fun _ => defaultCal) s) ∧ AllRest (updCal c (fun _ => defaultCal) s) :=
    ⟨hr.still hcal, fun d => (hcal.atRest d).trans (hrest d)⟩
  unfold Machine.eraseChannel
  dsimp only
  refine lowered ?_
  split
  · exact hafter
  · exact ⟨hafter.1.applyPopulated (hafter.2 c), fun d => atRest_applyPopulated (hafter.2 d)⟩

theorem Rows.eraseChannels (hr : Rows none s) (hrest : AllRest s) (l : List Chan) : Rows none (l.foldl Machine.eraseChannel s) := by
  induction l generalizing s with
  | nil => exact hr
  | cons c l ih => exact ih (hr.eraseChannel hrest c).1 (hr.eraseChannel hrest c).2

theorem Rows.eraseCalibration (hr : Rows none s) (hrest : AllRest s) : Rows none (eraseCalibration s) := by
  have hglob : Rows none { s with glob := defaultGlobal } := hr.of_rest hrest rfl rfl
  have herased := hglob.eraseChannels hrest allChans
  unfold Machine.eraseCalibration
  generalize allChans.foldl Machine.eraseChannel _ = w at herased
  exact herased.still ((Still.refl w).of_chans rfl rfl rfl rfl)

theorem Rows.calEraseRequest (hr : Rows none s) (x : Client) (p m : BitVec 4) (a : Word) :
    Rows none (calEraseRequest x p m a s).state := by
  unfold Machine.calEraseRequest
  split
  · exact hr
  · next hpass =>
    have hfree : s.nvc.busy.isSome = false ∧ (allChans.any fun c => !s.atRest c) = false := by
      have := firstFailing_none hpass (failsIf (s.nvc.busy.isSome || allChans.any fun c => !s.atRest c) .busy) (by simp)
      rwa [failsIf_eq_none, Bool.or_eq_false_iff] at this
    exact hr.eraseCalibration (allRest_of_any hfree.2)

/-! ## Completions, the start-up load, a lapse (R134, R186, R188) -/

theorem still_channelWritten (c : Chan) (r : CalRecord) (valid : Bool) (s : State) : Still s (channelWritten c r valid s) := by
  have hstored : Still s { s with nvc := storeChannelRecord c (writtenRecord c.val valid r) s.nvc } :=
    (Still.refl s).of_chans rfl rfl rfl rfl
  have hcleared : Still s (clearBusy (updCal c (fun r => { r with unsaved := unsavedAfter valid r.unsaved r.changed })
      { s with nvc := storeChannelRecord c (writtenRecord c.val valid r) s.nvc })) :=
    (hstored.updCal c fun r => { r with unsaved := unsavedAfter valid r.unsaved r.changed }).of_chans rfl rfl rfl rfl
  unfold channelWritten storeDone
  exact hcleared.post ..

theorem still_globalWritten (g : GlobalRecord) (valid : Bool) (s : State) : Still s (globalWritten g valid s) := by
  have hwritten : Still s ({ s with nvc := { s.nvc with glob := writtenRecord globalNumber valid g } }
      |> updGlobal (fun g => { g with unsaved := unsavedAfter valid g.unsaved g.changed }) |> clearBusy) :=
    (Still.refl s).of_chans rfl rfl rfl rfl
  unfold globalWritten storeDone
  exact hwritten.post ..

theorem still_imageErased (s : State) : Still s (imageErased s) := by
  have hblank : Still s { s with nvc := blankImage } := (Still.refl s).of_chans rfl rfl rfl rfl
  unfold imageErased storeDone
  exact hblank.post ..

theorem still_lapse (x : Client) (s : State) : Still s (lapse x s) := by
  have hdropped : Still s (allChans.foldl (lapseChannel x) (updLink x (fun l => { l with lapsed := true }) s)) :=
    ((Still.refl s).updLink x _).trans (Still.foldl (fun v c => (Still.refl v).updAuth ..) _ _)
  unfold lapse
  dsimp only
  refine Still.post ?_ ..
  split
  · exact hdropped.of_chans rfl rfl rfl rfl
  · exact hdropped

/-- R186 for a channel at rest, which stays so. -/
theorem Rows.loadChannel (hr : Rows none s) (hrest : AllRest s) (c : Chan) :
    Rows none (loadChannel s c) ∧ AllRest (loadChannel s c) := by
  have hcal := (Still.refl s).updCal c fun _ => s.nvc.working c
  have hafter : Rows none (updCal c (fun _ => s.nvc.working c) s) ∧ AllRest (updCal c (fun _ => s.nvc.working c) s) :=
    ⟨hr.still hcal, fun d => (hcal.atRest d).trans (hrest d)⟩
  have timed {w : State} (now b : Nat) (hw : Rows none w ∧ AllRest w) :
      Rows none (updMoc c (fun k => { k with brakeExpiry := b, brakeRunning := k.brakeRunning || decide (now < b) }) w) ∧
        AllRest (updMoc c (fun k => { k with brakeExpiry := b, brakeRunning := k.brakeRunning || decide (now < b) }) w) := by
    refine ⟨hw.1.updMoc_alike ⟨rfl, rfl, rfl, rfl, rfl, rfl, rfl⟩, fun d => ?_⟩
    have m := (Moves.refl c w).updMoc fun k => { k with brakeExpiry := b, brakeRunning := k.brakeRunning || decide (now < b) }
    refine (atRest_congr (s := w) ?_).trans (hw.2 d)
    by_cases hd : d = c
    · subst hd
      rw [m.moc]
    · rw [(m.other d hd).1]
  unfold Machine.loadChannel
  dsimp only
  refine timed _ _ ?_
  split
  · exact hafter
  · exact ⟨hafter.1.applyPopulated (hafter.2 c), fun d => atRest_applyPopulated (hafter.2 d)⟩

theorem Rows.loadChannels (hr : Rows none s) (hrest : AllRest s) (l : List Chan) :
    Rows none (l.foldl Machine.loadChannel s) ∧ AllRest (l.foldl Machine.loadChannel s) := by
  induction l generalizing s with
  | nil => exact ⟨hr, hrest⟩
  | cons c l ih => exact ih (hr.loadChannel hrest c).1 (hr.loadChannel hrest c).2

theorem Rows.loadAll (hr : Rows none s) (hready : s.ready = false) : Rows none (loadAll s) := by
  have hrest : AllRest s := hr.rest hready
  have hglob : Rows none { s with glob := loadGlobalRecord s.nvc.glob } := hr.of_rest hrest rfl rfl
  obtain ⟨hloaded, hstill⟩ := hglob.loadChannels hrest allChans
  unfold Machine.loadAll
  dsimp only
  generalize allChans.foldl Machine.loadChannel _ = w at hloaded hstill
  have hup : Rows none { w with
      calLoaded := true, ready := true, stb := { w.stb with sectorOne := false, since := w.clock.now } } :=
    hloaded.of_rest hstill rfl rfl
  exact hup.still ((Still.refl _).post ..)

end

end Sys2Proof.Machine
end

section
/-! The table of section 5.1, part 8: a request, a command and a step as a whole keep it. -/

namespace Sys2Proof.Machine

section
variable {s t : State}

/-! ## Requests (R171, R175) -/

/-- A request whose answer keeps the table, once READY where CLI routes it. -/
def KeepsRows (body : State → Answer) : Prop := ∀ u, Rows none u → Rows none (body u).state

theorem keepsRows_still {body : State → Answer} (hb : ∀ u, Still u (body u).state) : KeepsRows body :=
  fun u hr => hr.still (hb u)

theorem keepsRows_routed {body : State → Answer} (hb : ∀ u, u.ready = true → Rows none u → Rows none (body u).state) :
    KeepsRows (routed body) := by
  intro u hr
  unfold routed
  split
  · next hready => exact hb u hready hr
  · exact hr

theorem keepsRows_routed_still {body : State → Answer} (hb : ∀ u, Still u (body u).state) : KeepsRows (routed body) :=
  keepsRows_routed fun u _ hr => hr.still (hb u)

/-- Each request of the table of requests is a served body that keeps the table of motions. -/
theorem exec_request_keepsRows {i : Instr} {f : Client × Byte × BitVec 4 × BitVec 4 × Word} (h : requestFields i = some f) :
    ∃ x body, (∀ s, exec i s = serve x body s) ∧ KeepsRows body := by
  cases i with
  | nop x => exact ⟨x, fun u => ⟨.done, 0, u⟩, fun _ => rfl, fun _ hr => hr⟩
  | readEvent x p m a => exact ⟨x, readEvent x m a, fun _ => rfl, keepsRows_still fun u => still_readEvent x m a u⟩
  | popEvent x p m a => exact ⟨x, popEvent x m a, fun _ => rfl, keepsRows_still fun u => still_popEvent x m a u⟩
  | identify x p m a =>
    refine ⟨x, fun u => if 8 ≤ m.toNat ∨ a ≠ 0 then refuse .badArgument u else ⟨.done, u.identifyWord m.toNat, u⟩, fun _ => rfl,
      fun u hr => ?_⟩
    dsimp only
    split <;> exact hr
  | undefinedRequestCode x => exact ⟨x, refuse .badArgument, fun _ => rfl, fun _ hr => hr⟩
  | move x p m a => exact ⟨x, _, fun _ => rfl, keepsRows_routed fun _ h hr => hr.moveRequest h x p m a⟩
  | halt x p m a => exact ⟨x, _, fun _ => rfl, keepsRows_routed fun _ _ hr => hr.haltRequest x p m a⟩
  | stopClaim x p m a => exact ⟨x, _, fun _ => rfl, keepsRows_routed fun _ _ hr => hr.stopClaimRequest x p m a⟩
  | stopRelease x p m a => exact ⟨x, _, fun _ => rfl, keepsRows_routed_still fun u => still_stopReleaseRequest x p m a u⟩
  | lockoutSet x p m a => exact ⟨x, _, fun _ => rfl, keepsRows_routed fun _ _ hr => hr.lockoutSetRequest x p m a⟩
  | lockoutClear x p m a => exact ⟨x, _, fun _ => rfl, keepsRows_routed_still fun u => still_lockoutClearRequest x p m a u⟩
  | ackReversal x p m a => exact ⟨x, _, fun _ => rfl, keepsRows_routed fun _ _ hr => hr.ackReversalRequest x p m a⟩
  | panelRestart x p m a => exact ⟨x, _, fun _ => rfl, keepsRows_routed fun _ _ hr => hr.panelRestartRequest x p m a⟩
  | groupMove x p m a => exact ⟨x, _, fun _ => rfl, keepsRows_routed fun _ h hr => hr.groupMoveRequest h x p m a⟩
  | groupCancel x p m a => exact ⟨x, _, fun _ => rfl, keepsRows_routed fun _ _ hr => hr.groupCancelRequest x p m a⟩
  | readGroup x p m a => exact ⟨x, _, fun _ => rfl, keepsRows_routed_still fun u => still_readGroupRequest p m a u⟩
  | readPanel x p m a => exact ⟨x, _, fun _ => rfl, keepsRows_routed_still fun u => still_readPanel p m a u⟩
  | setEventMask x p m a => exact ⟨x, _, fun _ => rfl, keepsRows_routed_still fun u => still_setEventMask x m a u⟩
  | learnOpenEnd x p m a =>
    refine ⟨x, routed (if m = 0 then learnRequest x p a .openEnd .openEnd .closedKnown else refuse .badArgument), fun _ => rfl,
      keepsRows_routed fun _ h hr => ?_⟩
    split
    · exact hr.learnRequest h ..
    · exact hr
  | learnReference x p a => exact ⟨x, _, fun _ => rfl, keepsRows_routed fun _ h hr => hr.learnRequest h x p a _ _ _⟩
  | forget x p a => exact ⟨x, _, fun _ => rfl, keepsRows_routed_still fun u => still_forgetRequest x p a u⟩
  | setParameter x p m a => exact ⟨x, _, fun _ => rfl, keepsRows_routed fun _ _ hr => hr.setParameterRequest x p m a⟩
  | readParameter x p m a =>
    exact ⟨x, _, fun _ => rfl, keepsRows_routed fun u _ hr => (state_readParameterRequest p m a u).symm ▸ hr⟩
  | readProfile x p m a =>
    exact ⟨x, _, fun _ => rfl, keepsRows_routed fun u _ hr => (state_readProfileRequest p m a u).symm ▸ hr⟩
  | zoneBegin x p m a =>
    exact ⟨x, _, fun _ => rfl, keepsRows_routed_still fun u => still_zoneRequest x p _ fun c => still_zoneBegin x c u⟩
  | zonePutStart x p m a =>
    exact ⟨x, _, fun _ => rfl, keepsRows_routed_still fun u => still_zoneRequest x p _ fun c => still_zonePutStart x _ c u⟩
  | zonePutField x p m a =>
    exact ⟨x, _, fun _ => rfl, keepsRows_routed_still fun u => still_zoneRequest x p _ fun c => still_zonePutField x _ a c u⟩
  | zoneCommit x p m a =>
    exact ⟨x, _, fun _ => rfl, keepsRows_routed_still fun u => still_zoneRequest x p _ fun c => still_zoneCommit x c u⟩
  | zoneAbandon x p m a =>
    exact ⟨x, _, fun _ => rfl, keepsRows_routed_still fun u => still_zoneRequest x p _ fun c => still_zoneAbandon x c u⟩
  | store x p m a => exact ⟨x, _, fun _ => rfl, keepsRows_routed_still fun u => still_storeRequest x p m a u⟩
  | calLock x p m a => exact ⟨x, _, fun _ => rfl, keepsRows_routed_still fun u => still_calLockRequest x p m a u⟩
  | calErase x p m a => exact ⟨x, _, fun _ => rfl, keepsRows_routed fun _ _ hr => hr.calEraseRequest x p m a⟩
  | _ => cases h

theorem still_received (x : Client) (s : State) : Still s (received x s) :=
  (Still.refl s).of_chans rfl rfl rfl rfl

theorem Rows.serve (hr : Rows none s) {x : Client} {body : State → Answer} (hb : KeepsRows body)
    (h : serve x body s = .next t) : Rows none t := by
  cases h
  exact (hb _ (hr.still (still_received x s))).settle.still ((Still.refl _).updLink ..)

/-! ## Commands -/

theorem rows_reset : Rows none State.reset := (motionTable_iff.mp resetMeetsTheInvariants.2.2.2.2.2.1).1

theorem rows_resetDevice (b : Bool) (s : State) : Rows none (resetDevice b s) :=
  rows_reset.still ((Still.refl State.reset).of_chans rfl rfl rfl rfl)

theorem Rows.finish {u : State} (hr : Rows none u) (h : finish u = .next t) : Rows none t := by
  cases h
  exact hr.settle

/-- Every command keeps the table. -/
theorem Rows.exec (hr : Rows none s) {i : Instr} (h : exec i s = .next t) : Rows none t := by
  match hf : requestFields i with
  | some f =>
    obtain ⟨x, body, he, hb⟩ := exec_request_keepsRows hf
    exact hr.serve hb ((he s).symm.trans h)
  | none =>
    cases i with
    | resetN b =>
      cases h
      exact rows_resetDevice b s
    | frameError x =>
      cases h
      exact hr.still (((Still.refl s).updLink ..).updLink ..)
    | startUpLoad =>
      refine Rows.finish ?_ h
      split
      · exact hr
      · next hready => exact hr.loadAll (by simpa using hready)
    | hallAcceptance c pair =>
      refine Rows.finish ?_ h
      split
      · exact hr.accept c pair
      · exact hr
    | supplySample r =>
      refine Rows.finish (Rows.evaluateSupply ?_) h
      exact hr.still ((Still.refl s).of_chans rfl rfl rfl rfl)
    | ldeTake => exact (hr.still (still_takeNext s)).finish h
    | ldeCompletion =>
      refine Rows.finish ?_ h
      split
      · exact hr.completeTake _
      · exact hr
    | stall c =>
      refine Rows.finish ?_ h
      split
      · exact hr.stallExpired c
      · exact hr
    | brakeExpiry c =>
      refine Rows.finish ?_ h
      split
      · exact hr.brakeExpired c
      · exact hr
    | spacingTimerRunOut =>
      refine Rows.finish ?_ h
      split
      · exact hr.still (still_spacingRunsOut s)
      · exact hr
    | refreshDeadlineExpiry c =>
      refine Rows.finish ?_ h
      split
      · exact (hr.endOrder nofun _).whole
      · exact hr
    | waitDeadlineExpiry c =>
      refine Rows.finish ?_ h
      split
      · exact hr.waitExpired c
      · exact hr
    | overrideWindowExpiry c =>
      refine Rows.finish ?_ h
      split
      · exact hr.still ((Still.refl s).clearOverride c)
      · exact hr
    | lapseTimerExpiry x =>
      refine Rows.finish ?_ h
      split
      · exact hr.still (still_lapse x s)
      · exact hr
    | storeCompletion valid =>
      refine Rows.finish ?_ h
      split
      · split
        · split
          · exact hr.still (still_channelWritten ..)
          · exact hr.still (still_globalWritten ..)
          · exact hr.still (still_globalWritten ..)
          · exact hr
        · exact hr
      · exact hr
    | calEraseCompletion =>
      refine Rows.finish ?_ h
      split
      · split
        · exact hr.still (still_imageErased s)
        · exact hr
      · exact hr
    | sectorSwitch =>
      refine Rows.finish ?_ h
      split
      · exact hr.still ((Still.refl s).of_chans rfl rfl rfl rfl)
      · exact hr
    | stselChange level =>
      refine Rows.finish ?_ h
      exact hr.still ((Still.refl s).of_chans rfl rfl rfl rfl)
    | _ => cases hf

/-! ## A step with nothing waiting (log entry 1) -/

/-- A microsecond, or the filing of what is due, touches neither a motion nor the agenda. -/
structure Idles (s t : State) : Prop where
  still : Still s t
  agenda : t.agenda = s.agenda

theorem Idles.trans {u : State} (h : Idles s t) (k : Idles t u) : Idles s u := ⟨h.still.trans k.still, k.agenda.trans h.agenda⟩

theorem idles_enqueue (l : List Instr) (s : State) : Idles s (enqueue l s) := ⟨(Still.refl s).of_chans rfl rfl rfl rfl, rfl⟩

theorem idles_sampleHall (r : State × List Instr) (c : Chan) : Idles r.1 (sampleHall r c).1 := by
  unfold sampleHall
  split
  · exact ⟨(Still.refl r.1).updHif c fun _ => (filterSample r.1.pins.hall[c] (r.1.ch c).hif).1, rfl⟩
  · exact ⟨.refl _, rfl⟩

theorem idles_sampleHalls (s : State) : Idles s (sampleHalls s).1 := by
  have h (l : List Chan) (r : State × List Instr) : Idles r.1 (l.foldl sampleHall r).1 := by
    induction l generalizing r with
    | nil => exact ⟨.refl _, rfl⟩
    | cons c l ih => exact (idles_sampleHall r c).trans (ih _)
  exact h allChans (s, [])

theorem idles_tick (s : State) : Idles s (tick s) := by
  have helapse : Idles s (elapse 1 s) := ⟨(Still.refl s).of_chans rfl rfl rfl rfl, rfl⟩
  unfold tick
  split
  · exact (helapse.trans (idles_sampleHalls _)).trans (idles_enqueue ..)
  · exact idles_enqueue ..

end

/-- Settles O9: `Rows` is the table; every action keeps it, channel by channel through `Turned`, and ends with nothing
left to be done. -/
theorem motionTableKept : Obligations.MotionTableKept := by
  intro s t hs h
  obtain ⟨hr, ha⟩ := motionTable_iff.mp hs
  unfold step at h
  split at h
  · cases h
    have hidle := idles_tick s
    exact motionTable_iff.mpr ⟨hr.still hidle.still, hidle.agenda.trans ha⟩
  · next i rest _ =>
    have htail : Still s { s with pending := rest } := (Still.refl s).of_chans rfl rfl rfl rfl
    exact motionTable_iff.mpr ⟨(hr.still htail).exec h, actionsAreComplete i { s with pending := rest } t ha h⟩

end Sys2Proof.Machine
end
